-- ==== Sys2Proof/Word.lean ====
section
/-! DEFINITION. The word types of the block (00_scope.md R9 to R12): the byte, the host word, the opaque
screen code, and the three widths the spec decides. -/

namespace Sys2Proof

/-- A byte: 8 bits, bit 7 the most significant (R10, R11). -/
abbrev Byte := BitVec 8

/-- `SCREENCODE_BITS` (R9, D2). -/
abbrev screenCodeBits : Nat := 24

/-- `COORD_BITS` (R9, D2): the width of the x and y fields of a host word. -/
abbrev coordBits : Nat := 13

/-- `DIM_BITS` (R9, D9): the width of `sizeV` and `sizeH`. -/
abbrev dimBits : Nat := 16

/-- A host word: 32 bits, bit 31 the most significant (R11, R101). -/
abbrev HostWord := BitVec 32

/-- The opaque screen identifier. Nothing ever looks inside it (R102, R130). -/
abbrev ScreenCode := BitVec screenCodeBits

end Sys2Proof
end

