-- ==== Sys2Proof/Syntax.lean ====
section
/-! DEFINITION. The operand types and the instructions: the nine host operations (30_encoding.md R103) and
the ten panel commands (R112), one constructor for each row of spec/opcode_table.json. -/

namespace Sys2Proof

/-- The colour operand of CLEAR and SETPIXEL as a host word can spell it: the three colours of R16 and the
reserved code 11 of R105, which decodes to the operation and is refused by the operation's own rule. -/
inductive ColourArg where
  | white
  | black
  | grey
  | reserved
  deriving DecidableEq, Repr, Inhabited

/-- Colour (R16). -/
inductive Colour where
  | white
  | black
  | grey
  deriving DecidableEq, Repr, Inhabited

/-- BinColour (R16): what a pixel write is reduced to and what a pixel read answers. -/
inductive BinColour where
  | white
  | black
  deriving DecidableEq, Repr, Inhabited

/-- UpdateMode {Fast, Partial, Global, None} (R16, R106). -/
inductive UpdateMode where
  | fast
  | partialMode
  | globalMode
  | noUpdate
  deriving DecidableEq, Repr, Inhabited

/-- The four rotation states 0 to 3 (R16, R36). -/
inductive Orientation where
  | o0
  | o1
  | o2
  | o3
  deriving DecidableEq, Repr, Inhabited

/-- The instructions. A host operation carries the operands of the abstract operation (R20): coordinates are
any integers (R150, R182) and an orientation operand any integer (R107); the ones a host word can spell are
the well-formed ones (WellFormed.lean). A panel command has no operand: its payload is computed when it is
sent (43_cog_update.md R202). -/
inductive Instr where
  /-- BEGIN `code` (40_profile_resolver.md R136). -/
  | beginOp (code : ScreenCode)
  /-- CLEAR `c` (42_frame_buffer.md R180, R181). -/
  | clear (c : ColourArg)
  /-- SETPIXEL `x`, `y`, `c` (R182). -/
  | setPixel (x y : Int) (c : ColourArg)
  /-- GETPIXEL `x`, `y` (R183). -/
  | getPixel (x y : Int)
  /-- SETORIENT `o` (41_pixel_addressing.md R164). -/
  | setOrient (o : Int)
  /-- SETINVERT `flag` (R165). -/
  | setInvert (flag : Bool)
  /-- FLUSH (43_cog_update.md R224). -/
  | flush
  /-- FLUSHMODE `m` (R225). -/
  | flushMode (m : UpdateMode)
  /-- REGENERATE (R228). -/
  | regenerate
  /-- P_SOFT_RESET (44_panel_commands.md R244). -/
  | pSoftReset
  /-- P_TEMP_INPUT (R245). -/
  | pTempInput
  /-- P_TEMP_ACTIVATE (R246). -/
  | pTempActivate
  /-- P_PSR (R247). -/
  | pPsr
  /-- P_VCOM (R248). -/
  | pVcom
  /-- P_DATA_PREV (R249). -/
  | pDataPrev
  /-- P_DATA_NEXT (R250). -/
  | pDataNext
  /-- P_POWER_ON (R251). -/
  | pPowerOn
  /-- P_REFRESH (R252). -/
  | pRefresh
  /-- P_POWER_OFF (R253). -/
  | pPowerOff
  deriving DecidableEq, Repr, Inhabited

/-- A host operation, as against a panel command (R19). -/
def Instr.isHostOp : Instr → Bool
  | .beginOp _ => true
  | .clear _ => true
  | .setPixel _ _ _ => true
  | .getPixel _ _ => true
  | .setOrient _ => true
  | .setInvert _ => true
  | .flush => true
  | .flushMode _ => true
  | .regenerate => true
  | .pSoftReset => false
  | .pTempInput => false
  | .pTempActivate => false
  | .pPsr => false
  | .pVcom => false
  | .pDataPrev => false
  | .pDataNext => false
  | .pPowerOn => false
  | .pRefresh => false
  | .pPowerOff => false

end Sys2Proof
end

