-- ==== Sys2Proof/Config.lean ====
section
/-! DEFINITION. The parameters of the model (00_scope.md R9) and the free values the spec leaves open. The
parameters are plain data that a State carries, so that every statement about every state holds for every
choice of them; what a block that nobody has configured carries are opaque constants with no body. -/

namespace Sys2Proof

/-- `GREY_FRAME` (R9, D7): which coordinates enter the parity of the grey dither. -/
inductive GreyFrame where
  | logical
  | buffer
  deriving DecidableEq, Repr, Inhabited

/-- One row of `PROFILE_TABLE`: the independent fields of a profile (40_profile_resolver.md R131). -/
structure ProfileRow where
  sizeV : Nat
  sizeH : Nat
  dualHalf : Bool
  fastCapable : Bool
  altVoltageTable : Bool
  psr0 : Byte
  psr1 : Byte
  vcomA : Byte
  vcomAlt : Byte
  vcomB : Byte
  deriving DecidableEq, Repr, Inhabited

/-- A well-formed table row (R133, D10). -/
def ProfileRow.wf (r : ProfileRow) : Bool :=
  decide (0 < r.sizeV) && decide (r.sizeV < 2 ^ dimBits) &&
    decide (0 < r.sizeH) && decide (r.sizeH < 2 ^ dimBits) &&
    decide (r.sizeH % 8 = 0) &&
    (!r.dualHalf || decide (r.sizeV * (r.sizeH / 8) % 2 = 0))

/-- The parameters of R9. `PROFILE_TABLE` is a partial map kept as a list of rows under their codes; the first
row under a code is the one found. `greyBlackParity` is the value of (x + y) mod 2 that a grey write
renders black. `SETTLE_DELAY` has no value and no rule reads it (R320). -/
structure Params where
  profileTable : List (ScreenCode × ProfileRow)
  softResetData : Byte
  tempDefault : Byte
  tempActivateData : Byte
  cmdPowerOff : Byte
  greyFrame : GreyFrame
  greyBlackParity : Fin 2
  deriving DecidableEq, Repr, Inhabited

/-- Every row of the table is well formed (R133, R307). -/
def Params.tableWf (p : Params) : Bool := p.profileTable.all fun entry => entry.2.wf

/-- `CMD_POWER_OFF` differs from the codes of Power-On and Display-Refresh (30_encoding.md R113, U26). -/
def Params.powerOffWf (p : Params) : Bool := p.cmdPowerOff != 0x04#8 && p.cmdPowerOff != 0x12#8

/-- The parameters a model may be instantiated with. -/
def Params.wf (p : Params) : Bool := p.tableWf && p.powerOffWf

namespace Config

/-- FREE VALUE (log 2): the rows of `PROFILE_TABLE` before the ill-formed ones are left out. -/
opaque tableRows : List (ScreenCode × ProfileRow)

/-- FREE VALUE (log 2): `SOFT_RESET_DATA`. -/
opaque softResetData : Byte

/-- FREE VALUE (log 2): `TEMP_DEFAULT`. -/
opaque tempDefault : Byte

/-- FREE VALUE (log 2): `TEMP_ACTIVATE_DATA`. -/
opaque tempActivateData : Byte

/-- FREE VALUE (log 3): `CMD_POWER_OFF` before the two codes it must differ from are left out. -/
opaque powerOffByte : Byte

/-- FREE VALUE (log 2): `GREY_FRAME`. -/
opaque greyFrame : GreyFrame

/-- FREE VALUE (log 2): `GREY_BLACK_PARITY`. -/
opaque greyBlackParity : Fin 2

/-- FREE VALUE (log 5): what the busy line reads, true for ready, at the n-th draw (10_state.md R49,
44_panel_commands.md R243). -/
opaque panelReady : Nat → Bool

/-- FREE VALUE (log 6): what the temperature collaborator answers to a request at the n-th draw
(43_cog_update.md R226). -/
opaque temperatureAnswer : Nat → UpdateMode → UpdateMode

/-- `CMD_POWER_OFF`: any byte but 0x04 and 0x12 (log 3). -/
def cmdPowerOff : Byte :=
  if powerOffByte = 0x04#8 ∨ powerOffByte = 0x12#8 then 0x02#8 else powerOffByte

/-- The parameters of a block as it leaves the factory: any choice R9 allows. -/
def params : Params where
  profileTable := tableRows.filter fun entry => entry.2.wf
  softResetData := softResetData
  tempDefault := tempDefault
  tempActivateData := tempActivateData
  cmdPowerOff := cmdPowerOff
  greyFrame := greyFrame
  greyBlackParity := greyBlackParity

end Config

end Sys2Proof
end

