-- ==== Sys2Proof/WellFormed.lean ====
section
/-! DEFINITION. The instructions an encoding exists for: coordinates that fit the 13-bit fields of the host
word and an orientation in 0 to 3 (30_encoding.md R102, R107). Every other operand is well formed by its
type. An instruction that is not well formed is an abstract operation only (R20, D22). -/

namespace Sys2Proof

/-- A coordinate the host word can spell: 0 to 8191 (R102). -/
abbrev CoordEncodable (v : Int) : Prop := 0 ≤ v ∧ v < 2 ^ coordBits

/-- An orientation the host word can spell: 0 to 3 (R107). -/
abbrev OrientEncodable (o : Int) : Prop := 0 ≤ o ∧ o < 4

/-- The instruction has an encoding. -/
def Instr.wellFormed : Instr → Bool
  | .beginOp _ => true
  | .clear _ => true
  | .setPixel x y _ => decide (CoordEncodable x) && decide (CoordEncodable y)
  | .getPixel x y => decide (CoordEncodable x) && decide (CoordEncodable y)
  | .setOrient o => decide (OrientEncodable o)
  | .setInvert _ => true
  | .flush => true
  | .flushMode _ => true
  | .regenerate => true
  | .pSoftReset => true
  | .pTempInput => true
  | .pTempActivate => true
  | .pPsr => true
  | .pVcom => true
  | .pDataPrev => true
  | .pDataNext => true
  | .pPowerOn => true
  | .pRefresh => true
  | .pPowerOff => true

end Sys2Proof
end

