-- ==== Sys2Proof/Decode.lean ====
section
/-! DEFINITION. The encodings of 30_encoding.md: the host word (R101 to R109), the panel transmissions
(R110 to R113), the decoders of both, total and refusing by `none`, the encoder written from the same
tables, the response codes (R108) and the textual syntax (R123, R124). -/

namespace Sys2Proof

/-! ## Operand codes (R105 to R107) -/

/-- Colour code of R105. -/
def ColourArg.code : ColourArg → BitVec 2
  | .white => 0b00#2
  | .black => 0b01#2
  | .grey => 0b10#2
  | .reserved => 0b11#2

/-- The colour a 2-bit code stands for (R105). -/
def ColourArg.ofCode (b : BitVec 2) : ColourArg :=
  match b.toNat with
  | 0 => .white
  | 1 => .black
  | 2 => .grey
  | _ => .reserved

/-- Mode code of R106. -/
def UpdateMode.code : UpdateMode → BitVec 2
  | .fast => 0b00#2
  | .partialMode => 0b01#2
  | .globalMode => 0b10#2
  | .noUpdate => 0b11#2

/-- The mode a 2-bit code stands for (R106): all four are legal. -/
def UpdateMode.ofCode (b : BitVec 2) : UpdateMode :=
  match b.toNat with
  | 0 => .fast
  | 1 => .partialMode
  | 2 => .globalMode
  | _ => .noUpdate

/-- Colour code of a pixel response, 00 or 01 (R105, R108). -/
def BinColour.code : BinColour → BitVec 2
  | .white => 0b00#2
  | .black => 0b01#2

/-! ## The host word (R101 to R104) -/

/-- `W[27:26]`, the argument `a` (R101, R102). -/
def fieldA (w : HostWord) : BitVec 2 := w.extractLsb' 26 2

/-- `W[26]`, the flag of SETINVERT, whose bit 27 is a must-be-zero bit (R104). -/
def fieldFlag (w : HostWord) : Bool := w.getLsbD 26

/-- `W[25:13]`, the coordinate x, zero-extended (R101, R102). -/
def fieldX (w : HostWord) : Int := ((w.extractLsb' 13 coordBits).toNat : Int)

/-- `W[12:0]`, the coordinate y, zero-extended (R101, R102). -/
def fieldY (w : HostWord) : Int := ((w.extractLsb' 0 coordBits).toNat : Int)

/-- `W[23:0]`, the screen code (R101, R102). -/
def fieldCode (w : HostWord) : ScreenCode := w.extractLsb' 0 screenCodeBits

/-- One row of the operation map (R103): a word spells the operation exactly when `W & mask = match`. -/
structure HostRow where
  mask : HostWord
  pattern : HostWord
  operands : HostWord → Instr

/-- The word matches the row (R103). -/
def HostRow.spells (r : HostRow) (w : HostWord) : Bool := w &&& r.mask == r.pattern

/-- The operation map of R103, in its order. -/
def hostRows : List HostRow :=
  [ ⟨0xFF000000#32, 0x10000000#32, fun w => .beginOp (fieldCode w)⟩,
    ⟨0xF3FFFFFF#32, 0x20000000#32, fun w => .clear (.ofCode (fieldA w))⟩,
    ⟨0xF0000000#32, 0x30000000#32, fun w => .setPixel (fieldX w) (fieldY w) (.ofCode (fieldA w))⟩,
    ⟨0xFC000000#32, 0x40000000#32, fun w => .getPixel (fieldX w) (fieldY w)⟩,
    ⟨0xF3FFFFFF#32, 0x50000000#32, fun w => .setOrient ((fieldA w).toNat : Int)⟩,
    ⟨0xFBFFFFFF#32, 0x60000000#32, fun w => .setInvert (fieldFlag w)⟩,
    ⟨0xFFFFFFFF#32, 0x70000000#32, fun _ => .flush⟩,
    ⟨0xF3FFFFFF#32, 0x80000000#32, fun w => .flushMode (.ofCode (fieldA w))⟩,
    ⟨0xFFFFFFFF#32, 0x90000000#32, fun _ => .regenerate⟩ ]

/-- The decoder of the host port: total on every word, `none` for a word that matches no row (R103, R119). -/
def decodeHostWord (w : HostWord) : Option Instr :=
  (hostRows.find? fun r => r.spells w).map fun r => r.operands w

/-! ## The panel port (R110 to R113) -/

/-- One encoded instruction: a host word, or a panel transmission of form IDX (index byte and number of
payload bytes) or CMD8 (code byte) (R101, R110). -/
inductive Wire where
  | host (w : HostWord)
  | idx (index : Byte) (payloadLength : Nat)
  | cmd8 (code : Byte)
  deriving DecidableEq, Repr, Inhabited

/-- The decoder of a transmission of form IDX (R113). `frameSize` is `P.frameSize`. -/
def decodeIdx (frameSize : Nat) (index : Byte) (payloadLength : Nat) : Option Instr :=
  if index = 0x00#8 ∧ payloadLength = 1 then some .pSoftReset
  else if index = 0x00#8 ∧ payloadLength = 2 then some .pPsr
  else if index = 0xE5#8 ∧ payloadLength = 1 then some .pTempInput
  else if index = 0xE0#8 ∧ payloadLength = 1 then some .pTempActivate
  else if index = 0x50#8 ∧ payloadLength = 1 then some .pVcom
  else if index = 0x10#8 ∧ payloadLength = frameSize then some .pDataPrev
  else if index = 0x13#8 ∧ payloadLength = frameSize then some .pDataNext
  else none

/-- The decoder of a transmission of form CMD8 (R113). `powerOff` is `CMD_POWER_OFF`. -/
def decodeCmd8 (powerOff : Byte) (code : Byte) : Option Instr :=
  if code = 0x04#8 then some .pPowerOn
  else if code = 0x12#8 then some .pRefresh
  else if code = powerOff then some .pPowerOff
  else none

/-- The decoder of either port. -/
def decode (powerOff : Byte) (frameSize : Nat) : Wire → Option Instr
  | .host w => decodeHostWord w
  | .idx i n => decodeIdx frameSize i n
  | .cmd8 c => decodeCmd8 powerOff c

/-! ## The encoder -/

/-- Format N and format A of R101: operation code, argument, zeros. -/
def formatA (op : BitVec 4) (a : BitVec 2) : HostWord := op ++ a ++ 0#13 ++ 0#13

/-- Format P of R101: operation code, argument, x, y. -/
def formatP (op : BitVec 4) (a : BitVec 2) (x y : Int) : HostWord :=
  op ++ a ++ BitVec.ofInt coordBits x ++ BitVec.ofInt coordBits y

/-- Format B of R101: operation code, four zeros, the screen code. -/
def formatB (op : BitVec 4) (code : ScreenCode) : HostWord := op ++ 0#4 ++ code

/-- The encoding of an instruction: the host word of R103, or the transmission of R112. -/
def encode (powerOff : Byte) (frameSize : Nat) : Instr → Wire
  | .beginOp code => .host (formatB 0x1#4 code)
  | .clear c => .host (formatA 0x2#4 c.code)
  | .setPixel x y c => .host (formatP 0x3#4 c.code x y)
  | .getPixel x y => .host (formatP 0x4#4 0#2 x y)
  | .setOrient o => .host (formatA 0x5#4 (BitVec.ofInt 2 o))
  | .setInvert flag => .host (formatA 0x6#4 (0#1 ++ BitVec.ofBool flag))
  | .flush => .host (formatA 0x7#4 0#2)
  | .flushMode m => .host (formatA 0x8#4 m.code)
  | .regenerate => .host (formatA 0x9#4 0#2)
  | .pSoftReset => .idx 0x00#8 1
  | .pTempInput => .idx 0xE5#8 1
  | .pTempActivate => .idx 0xE0#8 1
  | .pPsr => .idx 0x00#8 2
  | .pVcom => .idx 0x50#8 1
  | .pDataPrev => .idx 0x10#8 frameSize
  | .pDataNext => .idx 0x13#8 frameSize
  | .pPowerOn => .cmd8 0x04#8
  | .pRefresh => .cmd8 0x12#8
  | .pPowerOff => .cmd8 powerOff

/-! ## The host's reading of a table row -/

/-- The code opcode_table.json notes as the default of `CMD_POWER_OFF`. Used only to read a bare table byte
(log 13); the machine itself sends the parameter. -/
def tablePowerOff : Byte := 0x02#8

/-- A bare panel byte of opcode_table.json, with no form and no payload length (log 13): index 0x00 is read as
the shorter of the two transmissions that share it, P_SOFT_RESET. -/
def decodePanelByte (b : Byte) : Option Instr :=
  if b = 0x00#8 then some .pSoftReset
  else if b = 0xE5#8 then some .pTempInput
  else if b = 0xE0#8 then some .pTempActivate
  else if b = 0x50#8 then some .pVcom
  else if b = 0x10#8 then some .pDataPrev
  else if b = 0x13#8 then some .pDataNext
  else decodeCmd8 tablePowerOff b

/-- The instruction the decoder reads from an opcode-table word: 32 bits are a host word, 8 bits a panel
index or code. -/
def decodeTableWord (nbits w : Nat) : Option Instr :=
  if nbits = 32 then
    if w < 2 ^ 32 then decodeHostWord (BitVec.ofNat 32 w) else none
  else if nbits = 8 then
    if w < 2 ^ 8 then decodePanelByte (BitVec.ofNat 8 w) else none
  else none

/-! ## Textual syntax (R123, R124) -/

/-- A colour as R123 writes it. DESIGN CHOICE (log 28): R123 has no name for the reserved code; it prints as `reserved`. -/
def ColourArg.text : ColourArg → String
  | .white => "white"
  | .black => "black"
  | .grey => "grey"
  | .reserved => "reserved"

/-- A mode as R123 writes it. -/
def UpdateMode.text : UpdateMode → String
  | .fast => "Fast"
  | .partialMode => "Partial"
  | .globalMode => "Global"
  | .noUpdate => "None"

/-- The call syntax of a host operation (R123); a panel command has none. DESIGN CHOICE (log 28): R123 says only that
`code` is a number, and it is written in decimal. -/
def Instr.text : Instr → Option String
  | .beginOp code => some ("begin(" ++ toString code.toNat ++ ")")
  | .clear c => some ("clear(" ++ c.text ++ ")")
  | .setPixel x y c =>
      some ("setPixel(" ++ toString x ++ ", " ++ toString y ++ ", " ++ c.text ++ ")")
  | .getPixel x y => some ("getPixel(" ++ toString x ++ ", " ++ toString y ++ ")")
  | .setOrient o => some ("setOrientation(" ++ toString o ++ ")")
  | .setInvert flag => some ("setInvert(" ++ toString flag ++ ")")
  | .flush => some "flush()"
  | .flushMode m => some ("flushMode(" ++ m.text ++ ")")
  | .regenerate => some "regenerate()"
  | .pSoftReset => none
  | .pTempInput => none
  | .pTempActivate => none
  | .pPsr => none
  | .pVcom => none
  | .pDataPrev => none
  | .pDataNext => none
  | .pPowerOn => none
  | .pRefresh => none
  | .pPowerOff => none

/-- The pseudo-operation `clear()` (R124). -/
def clearDefault : Instr := .clear .white

end Sys2Proof
end

