-- ==== Sys2Proof/Machine/State.lean ====
section
/-! DEFINITION. The state of the block (10_state.md), the observation, the environment's inputs, the reasons a
step can stop, and the block before BEGIN. Plain data throughout. -/

namespace Sys2Proof.Machine

/-- The sequencer position `SEQ`, in execution order (10_state.md R44). -/
inductive Seq where
  | idle
  | cfgResetSend
  | cfgResetWait
  | cfgTempSend
  | cfgTempWait
  | cfgActSend
  | cfgActWait
  | cfgPsrSend
  | cfgPsrWait
  | cfgVcomaSend
  | cfgVcomaWait
  | cfgVcomaltSend
  | cfgVcomaltWait
  | xferPrevSend
  | xferNextSend
  | xferCommit
  | rfrVcombSend
  | rfrPonSend
  | rfrPonWait
  | rfrRefreshSend
  | rfrRefreshWait
  | offSend
  | offWait
  deriving DecidableEq, Repr, Inhabited

/-- `REGEN`: 0, 1, 2 of R47. -/
inductive Regen where
  | off
  | blackCycle
  | whiteCycle
  deriving DecidableEq, Repr, Inhabited

/-- An event of `TRACE` (00_scope.md R15, 10_state.md R50). -/
inductive Event where
  | idx (index : Byte) (payload : List Byte)
  | cmd (code : Byte)
  | wait
  | tempChk (requested answer : UpdateMode)
  | report
  | delay
  deriving DecidableEq, Repr, Inhabited

/-- What a host operation hands back (30_encoding.md R108). -/
inductive Response where
  | done
  | colour (c : BinColour)
  | mode (m : UpdateMode)
  deriving DecidableEq, Repr, Inhabited

/-- A host operation whose cycle is running (43_cog_update.md R220, log 8). -/
inductive CycleOp where
  | flush
  | flushMode
  | regenerate
  deriving DecidableEq, Repr, Inhabited

/-- The twelve profile registers `P.*` (R32, R33). -/
structure Profile where
  sizeV : Nat
  sizeH : Nat
  bufferRowBytes : Nat
  planeSize : Nat
  frameSize : Nat
  fastCapable : Bool
  altVoltageTable : Bool
  psr0 : Byte
  psr1 : Byte
  vcomA : Byte
  vcomAlt : Byte
  vcomB : Byte
  deriving DecidableEq, Repr, Inhabited

/-- The degenerate profile (40_profile_resolver.md R132). -/
def Profile.degenerate : Profile where
  sizeV := 0
  sizeH := 0
  bufferRowBytes := 0
  planeSize := 0
  frameSize := 0
  fastCapable := false
  altVoltageTable := false
  psr0 := 0x00#8
  psr1 := 0x00#8
  vcomA := 0x00#8
  vcomAlt := 0x00#8
  vcomB := 0x00#8

/-- `FB`: the listed bytes, addresses strictly rising, none of them 0x00; an unlisted byte reads 0x00
(R48, log 15). -/
abbrev Memory := List Host.Cell

/-- The whole state. The first group is the spec's complete state (R30); the second is observation and
host-port state the spec implies; the third is the model's own: inputs, parameters, free-value counter. -/
structure State where
  /-- `P.*` (R31 to R34). -/
  profile : Profile
  /-- `INIT` (R40). -/
  init : Bool
  /-- `ORIENT` (R36). -/
  orient : Orientation
  /-- `INVERT` (R37). -/
  invert : Bool
  /-- `MODE` (R38); never None, by the invariant. -/
  mode : UpdateMode
  /-- `SEQ` (R44). -/
  seq : Seq
  /-- `REGEN` (R47). -/
  regen : Regen
  /-- `FB` (R48). -/
  fb : Memory
  /-- `TRACE` (R50), oldest event first. -/
  trace : List Event
  /-- The responses the host received, oldest first (R21, log 9). -/
  responses : List Response
  /-- The host operation whose cycle is running (log 8). -/
  inProgress : Option CycleOp
  /-- A host word presented now, whether or not the port is open (R42, log 10). -/
  hostPort : Option HostWord
  /-- The host words still to be presented, each when the port is open (log 7). -/
  hostQueue : List HostWord
  /-- The coming samples of the busy line, true for ready (R49, log 5). -/
  busyLine : List Bool
  /-- The coming answers of the temperature collaborator (R226, log 6). -/
  tempAnswers : List UpdateMode
  /-- How many free values have been drawn from Config (log 5, log 6). -/
  draws : Nat
  /-- The parameters (R9, log 2). -/
  params : Params
  deriving DecidableEq, Repr

/-- Why the machine stops with a fault. The spec gives the block none (60_exceptions.md R270). -/
inductive Fault where
  /-- Raised by Machine/Ops.lean's `memRead` and `memWrite` for an access outside `FB`, which R13 leaves
  undefined. Safe: no state a run reaches raises it (R79, log 16). -/
  | noSuchByte (address length : Nat)
  deriving DecidableEq, Repr

/-- Why an instruction is refused (60_exceptions.md R276). All safe: a refused run supports no claim. -/
inductive Refusal where
  /-- Raised by exec's arm of an instruction without a meaning; none is left. Safe. -/
  | notModelled (mnemonic : String)
  /-- Raised by every host operation but BEGIN while `INIT` = 0 (R40). Safe. -/
  | notBegun
  /-- Raised by BEGIN while `INIT` = 1 (R40, R136). Safe. -/
  | alreadyBegun
  /-- Raised by a host operation presented while the port is closed (R42). Safe. -/
  | reentrant
  /-- Raised by step for a host word that matches no row of the operation map (R119). Safe. -/
  | illegalHostWord (w : HostWord)
  /-- Raised by CLEAR and SETPIXEL for colour code 11 and by SETORIENT for an orientation outside 0 to 3
  (R105, R107). Safe. -/
  | illegalOperand
  /-- Raised when the model is instantiated with an ill-formed `PROFILE_TABLE` (R133, R276). Safe. -/
  | illFormedTable
  /-- Raised when the model is instantiated with `CMD_POWER_OFF` 0x04 or 0x12 (R113, U26). Safe. -/
  | ambiguousPowerOff
  /-- Raised by a panel command asked for while `SEQ` is not at a step that sends it, and by a cycle step
  asked for with `SEQ` = IDLE: the block never does either (R88, R121, log 12). Safe. -/
  | outOfSequence
  deriving DecidableEq, Repr

/-- What a meaning answers. -/
abbrev Result := Host.Outcome State Fault Refusal

/-- The block before BEGIN: `INIT` = 0 (R55). Every other register holds the value R54 gives it after a BEGIN
of a code the table lacks, a DESIGN CHOICE (log 1); inputs are empty and the parameters are Config's. -/
def State.reset : State where
  profile := Profile.degenerate
  init := false
  orient := .o0
  invert := false
  mode := .fast
  seq := .idle
  regen := .off
  fb := []
  trace := []
  responses := []
  inProgress := none
  hostPort := none
  hostQueue := []
  busyLine := []
  tempAnswers := []
  draws := 0
  params := Config.params

end Sys2Proof.Machine
end

