-- ==== Sys2Proof/Machine/Flags.lean ====
section
/-! DEFINITION. The one-bit values that steer the block (10_state.md R39): the polarity functions
(41_pixel_addressing.md R160, R161), the variant predicates (43_cog_update.md R203), and the order of `SEQ`
(10_state.md R44) with the codes of `REGEN` (R47). The block has no condition codes. -/

namespace Sys2Proof.Machine

/-- `rawBit(c, inv)`: the bit stored for a colour (R160). -/
def rawBit (c : BinColour) (inv : Bool) : Bool := (c == .black) ^^ inv

/-- `colourOf(b, inv)`: the colour a stored bit is read as (R161). -/
def colourOf (b inv : Bool) : BinColour := if b ^^ inv then .black else .white

/-- `fv`, the fast variant (R203). -/
def State.fv (s : State) : Bool := s.mode != .globalMode

/-- `vc`, Vcom commands wanted (R203). -/
def State.vc (s : State) : Bool := s.profile.fastCapable && s.mode != .globalMode

/-- The host port accepts an operation (R42). -/
abbrev State.PortOpen (s : State) : Prop := s.seq = .idle ∧ s.regen = .off

/-- The numeric code of a `SEQ` value (R44). -/
def Seq.code : Seq → Nat
  | .idle => 0
  | .cfgResetSend => 1
  | .cfgResetWait => 2
  | .cfgTempSend => 3
  | .cfgTempWait => 4
  | .cfgActSend => 5
  | .cfgActWait => 6
  | .cfgPsrSend => 7
  | .cfgPsrWait => 8
  | .cfgVcomaSend => 9
  | .cfgVcomaWait => 10
  | .cfgVcomaltSend => 11
  | .cfgVcomaltWait => 12
  | .xferPrevSend => 13
  | .xferNextSend => 14
  | .xferCommit => 15
  | .rfrVcombSend => 16
  | .rfrPonSend => 17
  | .rfrPonWait => 18
  | .rfrRefreshSend => 19
  | .rfrRefreshWait => 20
  | .offSend => 21
  | .offWait => 22

/-- A step that waits for the panel (R211, R218, R220). -/
def Seq.isWait : Seq → Bool
  | .cfgResetWait => true
  | .cfgTempWait => true
  | .cfgActWait => true
  | .cfgPsrWait => true
  | .cfgVcomaWait => true
  | .cfgVcomaltWait => true
  | .rfrPonWait => true
  | .rfrRefreshWait => true
  | .offWait => true
  | .idle => false
  | .cfgResetSend => false
  | .cfgTempSend => false
  | .cfgActSend => false
  | .cfgPsrSend => false
  | .cfgVcomaSend => false
  | .cfgVcomaltSend => false
  | .xferPrevSend => false
  | .xferNextSend => false
  | .xferCommit => false
  | .rfrVcombSend => false
  | .rfrPonSend => false
  | .rfrRefreshSend => false
  | .offSend => false

/-- `REGEN` as R47 numbers it. -/
def Regen.code : Regen → Nat
  | .off => 0
  | .blackCycle => 1
  | .whiteCycle => 2

/-- `next(s)` (43_cog_update.md R204). OFF_WAIT's successor is IDLE; what else its step does is R220. -/
def State.nextSeq (s : State) : Seq :=
  match s.seq with
  | .idle => .idle
  | .cfgResetSend => .cfgResetWait
  | .cfgResetWait => .cfgTempSend
  | .cfgTempSend => .cfgTempWait
  | .cfgTempWait => .cfgActSend
  | .cfgActSend => .cfgActWait
  | .cfgActWait => .cfgPsrSend
  | .cfgPsrSend => .cfgPsrWait
  | .cfgPsrWait => if s.vc then .cfgVcomaSend else .xferPrevSend
  | .cfgVcomaSend => .cfgVcomaWait
  | .cfgVcomaWait => if s.profile.altVoltageTable then .cfgVcomaltSend else .xferPrevSend
  | .cfgVcomaltSend => .cfgVcomaltWait
  | .cfgVcomaltWait => .xferPrevSend
  | .xferPrevSend => .xferNextSend
  | .xferNextSend => .xferCommit
  | .xferCommit => if s.vc then .rfrVcombSend else .rfrPonSend
  | .rfrVcombSend => .rfrPonSend
  | .rfrPonSend => .rfrPonWait
  | .rfrPonWait => .rfrRefreshSend
  | .rfrRefreshSend => .rfrRefreshWait
  | .rfrRefreshWait => .offSend
  | .offSend => .offWait
  | .offWait => .idle

end Sys2Proof.Machine
end

