-- ==== Sys2Proof/Machine/Operands.lean ====
section
/-! DEFINITION. The operand forms: the colour and orientation operands, and the translation of a logical
pixel to a byte and bit of a plane and back (41_pixel_addressing.md R150 to R159). -/

namespace Sys2Proof.Machine

/-- The colour an operand names; none for the reserved code (30_encoding.md R105). -/
def colourOperand : ColourArg → Option Colour
  | .white => some .white
  | .black => some .black
  | .grey => some .grey
  | .reserved => none

/-- The orientation an operand names; none outside 0 to 3 (R107, R164). -/
def orientOperand (o : Int) : Option Orientation :=
  if o = 0 then some .o0
  else if o = 1 then some .o1
  else if o = 2 then some .o2
  else if o = 3 then some .o3
  else none

/-- The number of an orientation (R107). -/
def orientNumber : Orientation → Nat
  | .o0 => 0
  | .o1 => 1
  | .o2 => 2
  | .o3 => 3

/-- `W(o)`: how many logical columns the orientation has (R151). -/
def rectWidth (p : Profile) : Orientation → Nat
  | .o0 => p.sizeH
  | .o1 => p.sizeV
  | .o2 => p.sizeH
  | .o3 => p.sizeV

/-- `Hh(o)`: how many logical rows the orientation has (R151). -/
def rectHeight (p : Profile) : Orientation → Nat
  | .o0 => p.sizeV
  | .o1 => p.sizeH
  | .o2 => p.sizeV
  | .o3 => p.sizeH

/-- The valid rectangle of an orientation (R151), checked on the integers as given, before any subtraction
(R162). -/
abbrev InRect (p : Profile) (x y : Int) (o : Orientation) : Prop :=
  (0 ≤ x ∧ x < (rectWidth p o : Int)) ∧ (0 ≤ y ∧ y < (rectHeight p o : Int))

/-- The buffer row `bx` of a pixel inside the rectangle (R152 to R155). -/
def bufferRow (p : Profile) (x y : Nat) : Orientation → Nat
  | .o0 => y
  | .o1 => x
  | .o2 => p.sizeV - 1 - y
  | .o3 => p.sizeV - 1 - x

/-- The buffer column `by` of a pixel inside the rectangle (R152 to R155). -/
def bufferColumn (p : Profile) (x y : Nat) : Orientation → Nat
  | .o0 => x
  | .o1 => p.sizeH - 1 - y
  | .o2 => p.sizeH - 1 - x
  | .o3 => y

/-- `off` of R156: the byte offset of buffer pixel (bx, by) inside a plane. -/
def byteOffset (p : Profile) (bx col : Nat) : Nat := bx * p.bufferRowBytes + col / 8

/-- `bit` of R156: bit 7 is the lowest column of a byte's span (20_memory.md R74). -/
def bitIndex (col : Nat) : Nat := 7 - col % 8

/-- Where a logical pixel lies: its buffer coordinates and its byte and bit (R150). -/
structure PixelPlace where
  bx : Nat
  col : Nat
  off : Nat
  bit : Nat
  deriving DecidableEq, Repr

/-- `ToBuffer(x, y, o)` (R150 to R156): `none` is the document's success = false. -/
def toBuffer (p : Profile) (x y : Int) (o : Orientation) : Option PixelPlace :=
  if InRect p x y o then
    let bx := bufferRow p x.toNat y.toNat o
    let col := bufferColumn p x.toNat y.toNat o
    some { bx := bx, col := col, off := byteOffset p bx col, bit := bitIndex col }
  else none

/-- The inverse mapping of R158: the logical pixel of a plane bit. DESIGN CHOICE (log 29): R162 leaves it undefined for
the degenerate profile, which has no plane bits; this function is total and answers some coordinate there too. -/
def fromBuffer (p : Profile) (off bit : Nat) (o : Orientation) : Int × Int :=
  let bx : Int := ((off / p.bufferRowBytes : Nat) : Int)
  let col : Int := ((8 * (off % p.bufferRowBytes) + (7 - bit) : Nat) : Int)
  match o with
  | .o0 => (col, bx)
  | .o1 => (bx, (p.sizeH : Int) - 1 - col)
  | .o2 => ((p.sizeH : Int) - 1 - col, (p.sizeV : Int) - 1 - bx)
  | .o3 => ((p.sizeV : Int) - 1 - bx, col)

/-- The sum whose parity decides a grey pixel (R159). -/
def ditherSum (frame : GreyFrame) (x y : Int) (place : PixelPlace) : Int :=
  match frame with
  | .logical => x + y
  | .buffer => (place.bx : Int) + (place.col : Int)

/-- `Reduce(c, x, y, bx, by)`: the colour written (R159). -/
def reduceColour (params : Params) (c : Colour) (x y : Int) (place : PixelPlace) : BinColour :=
  match c with
  | .white => .white
  | .black => .black
  | .grey =>
      if ditherSum params.greyFrame x y place % 2 = (params.greyBlackParity.val : Int) then .black
      else .white

end Sys2Proof.Machine
end

