-- ==== Sys2Proof/Machine/Ops.lean ====
section
/-! DEFINITION. The named operations over memory and registers (00_scope.md R13 to R15). The block takes no
exception: 60_exceptions.md R280 gives no entry and R281 no return, so there is no such operation here. What
stands in its place is the refusal of R14 (the gates below) and the environment primitives of R15. -/

namespace Sys2Proof.Machine

/-! ## Memory -/

/-- What an address of `FB` that nothing has listed reads as: the zero fill of BEGIN (R48, log 15). -/
def unlistedByte : Byte := 0x00#8

/-- The canonical form: addresses strictly rising, no entry equal to what an unlisted address reads as. -/
abbrev Memory.wf (m : Memory) : Prop :=
  m.Pairwise (fun c d => c.1 < d.1) ∧ ∀ c ∈ m, c.2 ≠ unlistedByte

/-- The byte at an address. -/
def Memory.byteAt : Memory → Nat → Byte
  | [], _ => unlistedByte
  | (k, b) :: rest, a => if k = a then b else Memory.byteAt rest a

/-- The cells a list of bytes from address `a` on takes in canonical form. -/
def Memory.cellsFrom : Nat → List Byte → Memory
  | _, [] => []
  | a, b :: rest =>
      if b = unlistedByte then Memory.cellsFrom (a + 1) rest
      else (a, b) :: Memory.cellsFrom (a + 1) rest

/-- Overwrites the bytes from address `a` on. -/
def Memory.write (m : Memory) (a : Nat) (bytes : List Byte) : Memory :=
  m.filter (fun c => decide (c.1 < a)) ++
    (Memory.cellsFrom a bytes ++ m.filter (fun c => decide (a + bytes.length ≤ c.1)))

/-- How many bytes `FB` has (R48). -/
def State.fbSize (s : State) : Nat := 2 * s.profile.planeSize

/-- `NEXT_BASE` (20_memory.md R71). -/
def State.nextBase (_ : State) : Nat := 0

/-- `PREV_BASE` (R71). -/
def State.prevBase (s : State) : Nat := s.profile.planeSize

/-- `FB[a]` as stored, whether or not the address exists: the model's read of one byte, for statements. -/
def State.fbByte (s : State) (a : Nat) : Byte := s.fb.byteAt a

/-- The `n` bytes from address `a` on, ascending (R13, R76). -/
def State.fbBytes (s : State) (a n : Nat) : List Byte := (List.range n).map fun k => s.fbByte (a + k)

/-- `MemRead(a, n)`, defined only inside `FB` (R13). -/
def State.memRead (s : State) (a n : Nat) : Option (List Byte) :=
  if a + n ≤ s.fbSize then some (s.fbBytes a n) else none

/-- `FB[a]`, that is `MemRead(a, 1)` (R13). -/
def State.memReadByte (s : State) (a : Nat) : Option Byte :=
  if a + 1 ≤ s.fbSize then some (s.fbByte a) else none

/-! ## Registers, each written here only -/

/-- `FB <- m`. -/
def State.setFb (s : State) (m : Memory) : State := { s with fb := m }

/-- `SEQ <- q` (R14). -/
def State.setSeq (s : State) (q : Seq) : State := { s with seq := q }

/-- `MODE <- m`. -/
def State.setMode (s : State) (m : UpdateMode) : State := { s with mode := m }

/-- `REGEN <- r`. -/
def State.setRegen (s : State) (r : Regen) : State := { s with regen := r }

/-- `ORIENT <- o`. -/
def State.setOrientation (s : State) (o : Orientation) : State := { s with orient := o }

/-- `INVERT <- b`. -/
def State.setInversion (s : State) (b : Bool) : State := { s with invert := b }

/-- `MemWrite(a, n, v)` with `n` the length of `v`, defined only inside `FB` (R13). -/
def State.memWrite (s : State) (a : Nat) (bytes : List Byte) : Option State :=
  if a + bytes.length ≤ s.fbSize then some (s.setFb (s.fb.write a bytes)) else none

/-- Which host operation's cycle is running (log 8). -/
def State.setInProgress (s : State) (op : Option CycleOp) : State := { s with inProgress := op }

/-! ## Environment primitives (R15) -/

/-- Appends one event to `TRACE`. -/
def State.emit (s : State) (e : Event) : State := { s with trace := s.trace ++ [e] }

/-- `SendIndexData(i, bytes)` (44_panel_commands.md R240). -/
def State.sendIndexData (s : State) (i : Byte) (bytes : List Byte) : State := s.emit (.idx i bytes)

/-- `SendCommand8(c)` (R241). -/
def State.sendCommand8 (s : State) (c : Byte) : State := s.emit (.cmd c)

/-- `Report()` (43_cog_update.md R227). -/
def State.report (s : State) : State := s.emit .report

/-- `Delay()` (R228). -/
def State.delay (s : State) : State := s.emit .delay

/-- `Done` or `Respond(v)`: hands the response to the host (R14, R108). -/
def State.respond (s : State) (r : Response) : State := { s with responses := s.responses ++ [r] }

/-- What the busy line reads at this sample, true for ready: the next sample the environment has lined up, or a
free value (R49, R243, log 5). -/
def State.lineReady (s : State) : Bool :=
  match s.busyLine with
  | ready :: _ => ready
  | [] => Config.panelReady s.draws

/-- Moves past one sample of the busy line. -/
def State.sampleLine (s : State) : State :=
  match s.busyLine with
  | _ :: rest => { s with busyLine := rest }
  | [] => { s with draws := s.draws + 1 }

/-- What the temperature collaborator answers to this request: the next answer the environment has lined up,
or a free value (R226, log 6). -/
def State.temperatureAnswer (s : State) (m : UpdateMode) : UpdateMode :=
  match s.tempAnswers with
  | answer :: _ => answer
  | [] => Config.temperatureAnswer s.draws m

/-- Moves past one answer of the temperature collaborator. -/
def State.takeAnswer (s : State) : State :=
  match s.tempAnswers with
  | _ :: rest => { s with tempAnswers := rest }
  | [] => { s with draws := s.draws + 1 }

/-- `CheckTemperatureMode(m)`: appends `TEMPCHK(m, a)` (R226). -/
def State.checkTemperatureMode (s : State) (m : UpdateMode) : State :=
  s.takeAnswer.emit (.tempChk m (s.temperatureAnswer m))

/-! ## Gates (R42, R40, R279) -/

/-- A host operation's first check: the port is open (R42, R279 (1)). -/
def State.whenOpen (s : State) (body : Result) : Result :=
  if s.PortOpen then body else .refused .reentrant

/-- The checks of every host operation but BEGIN: the port is open, then `INIT` = 1 (R40, R279). -/
def State.whenBegun (s : State) (body : Result) : Result :=
  s.whenOpen (if s.init then body else .refused .notBegun)

/-! ## The cycle's shared actions -/

/-- `StartCycle(m)` (43_cog_update.md R201). -/
def State.startCycle (s : State) (m : UpdateMode) : State := (s.setMode m).setSeq .cfgResetSend

/-- `SEQ <- next(SEQ)` (R204). -/
def State.advance (s : State) : State := s.setSeq s.nextSeq

/-- A send step of a cycle: transmits `e` when `SEQ` is at `site` and moves on (R205 to R219). -/
def State.sendFrom (s : State) (site : Seq) (e : Event) : Result :=
  if s.seq = site then .next (s.emit e).advance else .refused .outOfSequence

/-- A transfer step: transmits `P.frameSize` bytes of a plane under `index` when `SEQ` is at `site` (R212, R213). -/
def State.transferFrom (s : State) (site : Seq) (index : Byte) (base : Nat) : Result :=
  if s.seq = site then
    match s.memRead base s.profile.frameSize with
    | some bytes => .next (s.sendIndexData index bytes).advance
    | none => .fault (.noSuchByte base s.profile.frameSize)
  else .refused .outOfSequence

/-! ## Filling the "next" plane -/

/-- The byte of a solid fill (42_frame_buffer.md R180). -/
def State.fillByte (s : State) (c : BinColour) : Byte := if rawBit c s.invert then 0xFF#8 else 0x00#8

/-- The bytes of a solid fill, one plane of them (R180). -/
def State.solidPlane (s : State) (c : BinColour) : List Byte :=
  List.replicate s.profile.planeSize (s.fillByte c)

/-- The bytes of a grey clear: buffer rows of 0x55 and 0xAA by turns, `INVERT` not applied (R181). -/
def greyPlane (p : Profile) : List Byte :=
  (List.range p.sizeV).flatMap fun bx =>
    List.replicate p.bufferRowBytes (if bx % 2 = 0 then 0x55#8 else 0xAA#8)

/-- CLEAR's write for a solid colour: the whole "next" plane (R180). -/
def State.clearSolid (s : State) (c : BinColour) : Option State := s.memWrite s.nextBase (s.solidPlane c)

/-- CLEAR's write for grey: the whole "next" plane (R181). -/
def State.clearGrey (s : State) : Option State := s.memWrite s.nextBase (greyPlane s.profile)

/-- One bit of a byte put to `r`, the other seven kept (R182). -/
def withBit (old : Byte) (bit : Nat) (r : Bool) : Byte :=
  if r then old ||| (1#8 <<< bit) else old &&& ~~~(1#8 <<< bit)

end Sys2Proof.Machine
end

