-- ==== Sys2Proof/Machine/FrameBuffer.lean ====
section
/-! DEFINITION. The three operations that read or write the "next" plane: CLEAR, SETPIXEL, GETPIXEL
(42_frame_buffer.md). -/

namespace Sys2Proof.Machine

/-- CLEAR's write for any of the three colours (R180, R181). -/
def State.clearWrite (s : State) : Colour → Option State
  | .white => s.clearSolid .white
  | .black => s.clearSolid .black
  | .grey => s.clearGrey

/-- CLEAR `c` (R180, R181). -/
def execClear (c : ColourArg) (s : State) : Result :=
  s.whenBegun
    (match colourOperand c with
      | none => .refused .illegalOperand
      | some colour =>
          match s.clearWrite colour with
          | some t => .next (t.respond .done)
          | none => .fault (.noSuchByte s.nextBase s.profile.planeSize))

/-- SETPIXEL's read-modify-write of one byte of the "next" plane (R182). -/
def State.putPixel (s : State) (place : PixelPlace) (c : BinColour) : Option State :=
  match s.memReadByte (s.nextBase + place.off) with
  | some old => s.memWrite (s.nextBase + place.off) [withBit old place.bit (rawBit c s.invert)]
  | none => none

/-- SETPIXEL `x`, `y`, `c` (R182). A coordinate outside the valid rectangle is ignored: the host gets the same
response and nothing else changes (R14, R271). -/
def execSetPixel (x y : Int) (c : ColourArg) (s : State) : Result :=
  s.whenBegun
    (match colourOperand c with
      | none => .refused .illegalOperand
      | some colour =>
          match toBuffer s.profile x y s.orient with
          | none => .next (s.respond .done)
          | some place =>
              match s.putPixel place (reduceColour s.params colour x y place) with
              | some t => .next (t.respond .done)
              | none => .fault (.noSuchByte (s.nextBase + place.off) 1))

/-- The colour of a stored pixel (R183). -/
def State.pixelColour (s : State) (place : PixelPlace) : Option BinColour :=
  match s.memReadByte (s.nextBase + place.off) with
  | some b => some (colourOf (b.getLsbD place.bit) s.invert)
  | none => none

/-- GETPIXEL `x`, `y` (R183). -/
def execGetPixel (x y : Int) (s : State) : Result :=
  s.whenBegun
    (match toBuffer s.profile x y s.orient with
      | none => .next (s.respond (.colour .white))
      | some place =>
          match s.pixelColour place with
          | some c => .next (s.respond (.colour c))
          | none => .fault (.noSuchByte (s.nextBase + place.off) 1))

end Sys2Proof.Machine
end

