-- ==== Sys2Proof/Machine/Panel.lean ====
section
/-! DEFINITION. The ten panel commands (44_panel_commands.md R244 to R253): the payload of each, computed from
`MODE`, `P.*`, `FB` and the parameters (43_cog_update.md R202), the step of the cycle that sends it, and the
reading of an event of the panel port back as a command (30_encoding.md R113). -/

namespace Sys2Proof.Machine

/-- The waveform-temperature byte `T` (30_encoding.md R114). -/
def State.temperatureByte (s : State) : Byte :=
  if s.fv then s.params.tempDefault ||| 0x40#8 else s.params.tempDefault

/-- `PSR0w` (R115). -/
def State.psr0Byte (s : State) : Byte := if s.fv then s.profile.psr0 ||| 0x10#8 else s.profile.psr0

/-- `PSR1w` (R115). -/
def State.psr1Byte (s : State) : Byte := if s.fv then s.profile.psr1 ||| 0x02#8 else s.profile.psr1

/-- P_SOFT_RESET at CFG_RESET_SEND (R205, R244). -/
def execPSoftReset (s : State) : Result :=
  s.sendFrom .cfgResetSend (.idx 0x00#8 [s.params.softResetData])

/-- P_TEMP_INPUT at CFG_TEMP_SEND (R206, R245). -/
def execPTempInput (s : State) : Result := s.sendFrom .cfgTempSend (.idx 0xE5#8 [s.temperatureByte])

/-- P_TEMP_ACTIVATE at CFG_ACT_SEND (R207, R246). -/
def execPTempActivate (s : State) : Result :=
  s.sendFrom .cfgActSend (.idx 0xE0#8 [s.params.tempActivateData])

/-- P_PSR at CFG_PSR_SEND, PSR0 first (R208, R247). -/
def execPPsr (s : State) : Result := s.sendFrom .cfgPsrSend (.idx 0x00#8 [s.psr0Byte, s.psr1Byte])

/-- P_VCOM at any of its three sites: `vcomA` at CFG_VCOMA_SEND, `vcomAlt` at CFG_VCOMALT_SEND, `vcomB` at
RFR_VCOMB_SEND (R209, R210, R215, R248). -/
def execPVcom (s : State) : Result :=
  if s.seq = .cfgVcomaltSend then s.sendFrom .cfgVcomaltSend (.idx 0x50#8 [s.profile.vcomAlt])
  else if s.seq = .rfrVcombSend then s.sendFrom .rfrVcombSend (.idx 0x50#8 [s.profile.vcomB])
  else s.sendFrom .cfgVcomaSend (.idx 0x50#8 [s.profile.vcomA])

/-- P_DATA_PREV at XFER_PREV_SEND: the "previous" plane under 0x10 (R212, R249). -/
def execPDataPrev (s : State) : Result := s.transferFrom .xferPrevSend 0x10#8 s.prevBase

/-- P_DATA_NEXT at XFER_NEXT_SEND: the "next" plane under 0x13 (R213, R250). -/
def execPDataNext (s : State) : Result := s.transferFrom .xferNextSend 0x13#8 s.nextBase

/-- P_POWER_ON at RFR_PON_SEND (R216, R251). -/
def execPPowerOn (s : State) : Result := s.sendFrom .rfrPonSend (.cmd 0x04#8)

/-- P_REFRESH at RFR_REFRESH_SEND (R217, R252). -/
def execPRefresh (s : State) : Result := s.sendFrom .rfrRefreshSend (.cmd 0x12#8)

/-- P_POWER_OFF at OFF_SEND, with the parameter `CMD_POWER_OFF` (R219, R253). -/
def execPPowerOff (s : State) : Result := s.sendFrom .offSend (.cmd s.params.cmdPowerOff)

/-- The panel command an event of `TRACE` is a transmission of (R113); none for the other events. -/
def State.commandOf (s : State) : Event → Option Instr
  | .idx i payload => decodeIdx s.profile.frameSize i payload.length
  | .cmd c => decodeCmd8 s.params.cmdPowerOff c
  | .wait => none
  | .tempChk _ _ => none
  | .report => none
  | .delay => none

end Sys2Proof.Machine
end

