-- ==== Sys2Proof/Machine/Pixel.lean ====
section
/-! DEFINITION. The two operations that set the registers of the Pixel Addressing Engine
(41_pixel_addressing.md R164, R165). -/

namespace Sys2Proof.Machine

/-- SETORIENT `o` (R164). -/
def execSetOrient (o : Int) (s : State) : Result :=
  s.whenBegun
    (match orientOperand o with
      | some orient => .next ((s.setOrientation orient).respond .done)
      | none => .refused .illegalOperand)

/-- SETINVERT `flag` (R165). -/
def execSetInvert (flag : Bool) (s : State) : Result :=
  s.whenBegun (.next ((s.setInversion flag).respond .done))

end Sys2Proof.Machine
end

