-- ==== Sys2Proof/Machine/Resolver.lean ====
section
/-! DEFINITION. The Screen Profile Resolver and BEGIN (40_profile_resolver.md), and the check of the
parameters when the model is instantiated (R133, R276). -/

namespace Sys2Proof.Machine

/-- The row of `PROFILE_TABLE` under a code (R130): the first one listed (log 22). -/
def tableRow (params : Params) (code : ScreenCode) : Option ProfileRow :=
  (params.profileTable.find? fun entry => entry.1 == code).map fun entry => entry.2

/-- A row with its derived fields filled in (R131). -/
def rowProfile (r : ProfileRow) : Profile where
  sizeV := r.sizeV
  sizeH := r.sizeH
  bufferRowBytes := r.sizeH / 8
  planeSize := r.sizeV * (r.sizeH / 8)
  frameSize := if r.dualHalf then r.sizeV * (r.sizeH / 8) / 2 else r.sizeV * (r.sizeH / 8)
  fastCapable := r.fastCapable
  altVoltageTable := r.altVoltageTable
  psr0 := r.psr0
  psr1 := r.psr1
  vcomA := r.vcomA
  vcomAlt := r.vcomAlt
  vcomB := r.vcomB

/-- `Resolve(code)`: the row's profile, or the degenerate one for an unknown code (R130, R132). -/
def resolve (params : Params) (code : ScreenCode) : Profile :=
  match tableRow params code with
  | some r => rowProfile r
  | none => Profile.degenerate

/-- The registers, memory and trace as BEGIN leaves them (R54, R136). -/
def State.begun (s : State) (code : ScreenCode) : State :=
  { s with
    profile := resolve s.params code
    fb := []
    orient := .o0
    invert := false
    mode := .fast
    seq := .idle
    regen := .off
    trace := []
    init := true }

/-- BEGIN `code` (R136). -/
def execBegin (code : ScreenCode) (s : State) : Result :=
  s.whenOpen (if s.init then .refused .alreadyBegun else .next ((s.begun code).respond .done))

/-- The block before BEGIN, supplied with parameters: a table with an ill-formed row is refused, and so is a
Power-Off code that another command has (R133, R113, R276, log 4). -/
def instantiate (params : Params) : Result :=
  if params.tableWf then
    if params.powerOffWf then .next { State.reset with params := params }
    else .refused .ambiguousPowerOff
  else .refused .illFormedTable

end Sys2Proof.Machine
end

