-- ==== Sys2Proof/Machine/Update.lean ====
section
/-! DEFINITION. The three host operations that run cycles: FLUSH, FLUSHMODE, REGENERATE (43_cog_update.md
R224 to R229). Each starts a cycle; the response comes from the cycle's last step (R220). -/

namespace Sys2Proof.Machine

/-- FLUSH (R224). -/
def execFlush (s : State) : Result :=
  s.whenBegun (.next ((s.startCycle .fast).setInProgress (some .flush)))

/-- What FLUSHMODE does with the collaborator's answer (R225, R227): None reports and responds None, any other
mode starts a cycle in it. -/
def State.applyMode (s : State) (answer : UpdateMode) : State :=
  if answer = .noUpdate then s.report.respond (.mode .noUpdate)
  else (s.startCycle answer).setInProgress (some .flushMode)

/-- FLUSHMODE `m` (R225). -/
def execFlushMode (m : UpdateMode) (s : State) : Result :=
  s.whenBegun (.next ((s.checkTemperatureMode m).applyMode (s.temperatureAnswer m)))

/-- REGENERATE (R228). -/
def execRegenerate (s : State) : Result :=
  s.whenBegun
    (match s.clearSolid .black with
      | some t => .next (((t.setRegen .blackCycle).startCycle .fast).setInProgress (some .regenerate))
      | none => .fault (.noSuchByte s.nextBase s.profile.planeSize))

end Sys2Proof.Machine
end

