-- ==== Sys2Proof/Machine/Dispatch.lean ====
section
/-! DEFINITION. exec: one arm per instruction, each one direct call of its meaning. -/

namespace Sys2Proof.Machine

def exec (i : Instr) (s : State) : Host.Outcome State Fault Refusal :=
  match i with
  -- host operations (30_encoding.md R103)
  | .beginOp code => Sys2Proof.Machine.execBegin code s
  | .clear c => Sys2Proof.Machine.execClear c s
  | .setPixel x y c => Sys2Proof.Machine.execSetPixel x y c s
  | .getPixel x y => Sys2Proof.Machine.execGetPixel x y s
  | .setOrient o => Sys2Proof.Machine.execSetOrient o s
  | .setInvert flag => Sys2Proof.Machine.execSetInvert flag s
  | .flush => Sys2Proof.Machine.execFlush s
  | .flushMode m => Sys2Proof.Machine.execFlushMode m s
  | .regenerate => Sys2Proof.Machine.execRegenerate s
  -- panel commands (30_encoding.md R112)
  | .pSoftReset => Sys2Proof.Machine.execPSoftReset s
  | .pTempInput => Sys2Proof.Machine.execPTempInput s
  | .pTempActivate => Sys2Proof.Machine.execPTempActivate s
  | .pPsr => Sys2Proof.Machine.execPPsr s
  | .pVcom => Sys2Proof.Machine.execPVcom s
  | .pDataPrev => Sys2Proof.Machine.execPDataPrev s
  | .pDataNext => Sys2Proof.Machine.execPDataNext s
  | .pPowerOn => Sys2Proof.Machine.execPPowerOn s
  | .pRefresh => Sys2Proof.Machine.execPRefresh s
  | .pPowerOff => Sys2Proof.Machine.execPPowerOff s

end Sys2Proof.Machine
end

