-- ==== Sys2Proof/Machine/Sequencer.lean ====
section
/-! DEFINITION. The cycle steps that are no panel command: the waits, the commit copy, and the end of the cycle
(43_cog_update.md R211, R214, R218, R220). -/

namespace Sys2Proof.Machine

/-- A `*_WAIT` step other than OFF_WAIT (R211, R218): when the panel presents ready, `WaitBusy()` returns and the
sequence moves on; when it does not, the sample is used up and nothing else happens (R243, log 5). -/
def waitStep (s : State) : Result :=
  if s.lineReady then .next (s.sampleLine.emit .wait).advance else .next s.sampleLine

/-- XFER_COMMIT (R214): the whole "next" plane over the "previous" one, on a dual-half panel too. -/
def commitStep (s : State) : Result :=
  match s.memRead s.nextBase s.profile.planeSize with
  | some bytes =>
      match s.memWrite s.prevBase bytes with
      | some t => .next t.advance
      | none => .fault (.noSuchByte s.prevBase s.profile.planeSize)
  | none => .fault (.noSuchByte s.nextBase s.profile.planeSize)

/-- What the host operation whose cycle ends responds (R220): FLUSHMODE the mode used, the others nothing. -/
def State.cycleResponse (s : State) : Response :=
  match s.inProgress with
  | some .flushMode => .mode s.mode
  | some .flush => .done
  | some .regenerate => .done
  | none => .done

/-- The host operation that started the cycle finishes (R220). -/
def State.finishCycle (s : State) : State :=
  ((s.setSeq .idle).setInProgress none).respond s.cycleResponse

/-- What OFF_WAIT does once `WaitBusy()` has returned, by `REGEN` (R220, log 18). -/
def endCycle (s : State) : Result :=
  match s.regen with
  | .off => .next s.finishCycle
  | .blackCycle =>
      match s.delay.clearSolid .white with
      | some t => .next ((t.setRegen .whiteCycle).startCycle .fast)
      | none => .fault (.noSuchByte s.nextBase s.profile.planeSize)
  | .whiteCycle => .next (s.setRegen .off).finishCycle

/-- OFF_WAIT (R220): a wait like the others, whose return ends the cycle. -/
def offWaitStep (s : State) : Result :=
  if s.lineReady then endCycle (s.sampleLine.emit .wait) else .next s.sampleLine

end Sys2Proof.Machine
end

