-- ==== Sys2Proof/Machine/Cycle.lean ====
section
/-! DEFINITION. What runs next: the cycle step `SEQ` stands at (43_cog_update.md R204 to R220), the host word
the port takes (10_state.md R42), and where an instruction is put to be run next (log 7). -/

namespace Sys2Proof.Machine

/-- The panel command a send step runs (30_encoding.md R112, "sent at `SEQ`"). -/
def Seq.command : Seq → Option Instr
  | .cfgResetSend => some .pSoftReset
  | .cfgTempSend => some .pTempInput
  | .cfgActSend => some .pTempActivate
  | .cfgPsrSend => some .pPsr
  | .cfgVcomaSend => some .pVcom
  | .cfgVcomaltSend => some .pVcom
  | .xferPrevSend => some .pDataPrev
  | .xferNextSend => some .pDataNext
  | .rfrVcombSend => some .pVcom
  | .rfrPonSend => some .pPowerOn
  | .rfrRefreshSend => some .pRefresh
  | .offSend => some .pPowerOff
  | .idle => none
  | .cfgResetWait => none
  | .cfgTempWait => none
  | .cfgActWait => none
  | .cfgPsrWait => none
  | .cfgVcomaWait => none
  | .cfgVcomaltWait => none
  | .xferCommit => none
  | .rfrPonWait => none
  | .rfrRefreshWait => none
  | .offWait => none

/-- The first `SEQ` step that sends a panel command (R112). -/
def sendSite : Instr → Option Seq
  | .beginOp _ => none
  | .clear _ => none
  | .setPixel _ _ _ => none
  | .getPixel _ _ => none
  | .setOrient _ => none
  | .setInvert _ => none
  | .flush => none
  | .flushMode _ => none
  | .regenerate => none
  | .pSoftReset => some .cfgResetSend
  | .pTempInput => some .cfgTempSend
  | .pTempActivate => some .cfgActSend
  | .pPsr => some .cfgPsrSend
  | .pVcom => some .cfgVcomaSend
  | .pDataPrev => some .xferPrevSend
  | .pDataNext => some .xferNextSend
  | .pPowerOn => some .rfrPonSend
  | .pRefresh => some .rfrRefreshSend
  | .pPowerOff => some .offSend

/-- One step of a running cycle: a send step runs its panel command, a wait step waits, XFER_COMMIT copies
(R205 to R220). -/
def cycleStep (s : State) : Result :=
  match s.seq.command with
  | some i => exec i s
  | none =>
      if s.seq = .xferCommit then commitStep s
      else if s.seq = .offWait then offWaitStep s
      else if s.seq.isWait then waitStep s
      else .refused .outOfSequence

/-- A host word is decoded and run (30_encoding.md R103, R119). -/
def runHostWord (w : HostWord) (s : State) : Result :=
  match decodeHostWord w with
  | some i => exec i s
  | none => .refused (.illegalHostWord w)

/-- The host word the open port takes, and the state without it: the one presented now, else the next of the
host's program (log 7). -/
def State.takeHostWord (s : State) : Option (HostWord × State) :=
  match s.hostPort with
  | some w => some (w, { s with hostPort := none })
  | none =>
      match s.hostQueue with
      | w :: rest => some (w, { s with hostQueue := rest })
      | [] => none

/-- One step with the port open: the next host word is run; with none to run the block does nothing
(70_reset_and_hazards.md R301, log 11). -/
def hostStep (s : State) : Result :=
  match s.takeHostWord with
  | some (w, t) => runHostWord w t
  | none => .next s

/-- One step with the port closed: a word presented now is refused (10_state.md R42), otherwise the cycle
goes on. -/
def closedStep (s : State) : Result :=
  match s.hostPort with
  | some _ => .refused .reentrant
  | none => cycleStep s

/-- `s` with an instruction placed where step takes its next one from (log 7). A host word goes to the head of
the host's program, with the port open and `INIT` as the operation's gate wants it; a panel command is
selected by `SEQ` at the step that sends it. -/
def State.placeInstr (s : State) (w : HostWord) (i : Option Instr) : State :=
  match i.bind sendSite with
  | some site => { s with seq := site, init := true, hostPort := none }
  | none =>
      { s with
        hostQueue := w :: s.hostQueue
        hostPort := none
        seq := .idle
        regen := .off
        init :=
          match i with
          | some (.beginOp _) => false
          | _ => true }

end Sys2Proof.Machine
end

