-- ==== Sys2Proof/Machine/Step.lean ====
section
/-! DEFINITION. One step of the machine, and where the host puts an instruction to be run next. -/

namespace Sys2Proof.Machine

/-- One step (00_scope.md R8): with the host port open the host's next operation, otherwise the step of the
running cycle that `SEQ` stands at. -/
def step (s : State) : Host.Outcome State Fault Refusal :=
  if s.PortOpen then hostStep s else closedStep s

/-- `s` with the opcode-table word `w` of `nbits` bits placed where step takes its next instruction (log 7). -/
def State.withFetchWord (s : State) (nbits w : Nat) : State :=
  s.placeInstr (BitVec.ofNat 32 w) (decodeTableWord nbits w)

end Sys2Proof.Machine
end

