-- ==== Sys2Proof/Machine/Response.lean ====
section
/-! DEFINITION. What a response carries on the host port (30_encoding.md R108) and how a line of a transcript
writes it (R123). -/

namespace Sys2Proof.Machine

/-- The 2-bit value of a response; Done has none (R108). -/
def Response.code : Response → Option (BitVec 2)
  | .done => none
  | .colour c => some c.code
  | .mode m => some m.code

/-- A response as R123 writes it after the arrow; Done, for which R123 names no word, is not written (DESIGN CHOICE,
log 28). -/
def Response.text : Response → Option String
  | .done => none
  | .colour .white => some "white"
  | .colour .black => some "black"
  | .mode m => some m.text

/-- A host operation with its response, one line (R123); a panel command has no such line. -/
def transcriptLine (i : Instr) (r : Response) : Option String :=
  match i.text, r.text with
  | some call, some answer => some (call ++ " → " ++ answer)
  | some call, none => some call
  | none, _ => none

end Sys2Proof.Machine
end

