-- ==== Sys2Proof/Safety.lean ====
section
/-! DEFINITION. What claims are stated in: the well-formed profile, the invariants of the block, the phases, the
observation and the end of a run, the trace of one cycle, and the panel's power as the trace shows it. -/

namespace Sys2Proof.Machine

/-! ## Well-formed profiles -/

/-- A profile as `Resolve` makes it from a well-formed row or for an unknown code (40_profile_resolver.md R131
to R133). -/
structure Profile.WellFormed (p : Profile) : Prop where
  sizeV_lt : p.sizeV < 2 ^ dimBits
  sizeH_lt : p.sizeH < 2 ^ dimBits
  sizeH_mod : p.sizeH % 8 = 0
  rowBytes : p.bufferRowBytes = p.sizeH / 8
  plane : p.planeSize = p.sizeV * p.bufferRowBytes
  frame : p.frameSize = p.planeSize ∨ (p.frameSize = p.planeSize / 2 ∧ p.planeSize % 2 = 0)

/-! ## Running -/

/-- The block accepts a host operation other than BEGIN: the port is open and `INIT` = 1 (10_state.md R40, R42). -/
abbrev State.Accepting (s : State) : Prop := s.PortOpen ∧ s.init = true

/-- `n` steps, stopping at the first fault or refusal. -/
def runSteps : Nat → State → Result
  | 0, s => .next s
  | n + 1, s =>
      match step s with
      | .next t => runSteps n t
      | .fault f => .fault f
      | .refused r => .refused r

/-! ## Invariants -/

/-- The frame buffer is sound: the parameters and the profile are well formed, `FB` is in canonical form, and
every listed byte has an address of `FB` (10_state.md R48, 20_memory.md R71, R83). -/
structure FrameBufferInv (s : State) : Prop where
  params_wf : s.params.wf = true
  profile_wf : s.profile.WellFormed
  fb_wf : Memory.wf s.fb
  fb_inside : ∀ c ∈ s.fb, c.1 < s.fbSize

/-- A step of the Vcom sends and their waits (10_state.md R44, the optional steps). -/
def Seq.isVcom : Seq → Bool
  | .cfgVcomaSend => true
  | .cfgVcomaWait => true
  | .cfgVcomaltSend => true
  | .cfgVcomaltWait => true
  | .rfrVcombSend => true
  | _ => false

/-- A step of the alternate Vcom send and its wait. -/
def Seq.isVcomAlt : Seq → Bool
  | .cfgVcomaltSend => true
  | .cfgVcomaltWait => true
  | _ => false

/-- The sequencer is sound: the port is open exactly when no host operation's cycle runs, `REGEN` is 1 or 2
exactly during a REGENERATE, no cycle runs before BEGIN, `MODE` is never None (10_state.md R38, R40, R42,
R47), and the optional steps are reached only under their conditions (43_cog_update.md R209, R210, R215). -/
structure SequencerInv (s : State) : Prop where
  idle_regen : s.seq = .idle → s.regen = .off
  open_iff : s.seq = .idle ↔ s.inProgress = none
  regen_iff : s.regen ≠ .off ↔ s.inProgress = some .regenerate
  begun : s.init = false → s.seq = .idle
  mode_ne : s.mode ≠ .noUpdate
  vcom : s.seq.isVcom = true → s.vc = true
  vcomAlt : s.seq.isVcomAlt = true → s.profile.altVoltageTable = true

/-! ## The panel's power as the trace shows it -/

/-- One event's effect on the panel's power stage: Power-On puts it on, Power-Off off (44_panel_commands.md
R251, R253). -/
def powerAfter (powerOff : Byte) (on : Bool) : Event → Bool
  | .cmd c => if c = 0x04#8 then true else if c = powerOff then false else on
  | .idx _ _ => on
  | .wait => on
  | .tempChk _ _ => on
  | .report => on
  | .delay => on

/-- Whether a trace that begins with the power off leaves it on. -/
def panelPowered (powerOff : Byte) (trace : List Event) : Bool := trace.foldl (powerAfter powerOff) false

/-- The steps from the wait after Power-On to the sending of Power-Off (60_exceptions.md R293). -/
def Seq.insidePower : Seq → Bool
  | .rfrPonWait => true
  | .rfrRefreshSend => true
  | .rfrRefreshWait => true
  | .offSend => true
  | _ => false

/-- The panel is powered exactly between the sending of Power-On and of Power-Off (R255, R293). -/
structure PowerInv (s : State) : Prop where
  powerOff_wf : s.params.powerOffWf = true
  powered_iff : panelPowered s.params.cmdPowerOff s.trace = s.seq.insidePower

/-! ## Phases, observation, end of a run -/

/-- The four phases of a cycle (43_cog_update.md R200). -/
inductive Phase where
  | configure
  | transfer
  | refresh
  | powerOff
  deriving DecidableEq, Repr, Inhabited

/-- The phase of a step (10_state.md R44). -/
def Seq.phase : Seq → Option Phase
  | .idle => none
  | .cfgResetSend => some .configure
  | .cfgResetWait => some .configure
  | .cfgTempSend => some .configure
  | .cfgTempWait => some .configure
  | .cfgActSend => some .configure
  | .cfgActWait => some .configure
  | .cfgPsrSend => some .configure
  | .cfgPsrWait => some .configure
  | .cfgVcomaSend => some .configure
  | .cfgVcomaWait => some .configure
  | .cfgVcomaltSend => some .configure
  | .cfgVcomaltWait => some .configure
  | .xferPrevSend => some .transfer
  | .xferNextSend => some .transfer
  | .xferCommit => some .transfer
  | .rfrVcombSend => some .refresh
  | .rfrPonSend => some .refresh
  | .rfrPonWait => some .refresh
  | .rfrRefreshSend => some .refresh
  | .rfrRefreshWait => some .refresh
  | .offSend => some .powerOff
  | .offWait => some .powerOff

/-- What a claim observes (00_scope.md R21): the responses, the contents of `FB`, `ORIENT`, `INVERT`, the profile
and the trace. -/
structure Observation where
  responses : List Response
  fb : List Byte
  orient : Orientation
  invert : Bool
  profile : Profile
  trace : List Event
  deriving DecidableEq, Repr

/-- The observation of a state. -/
def State.observe (s : State) : Observation where
  responses := s.responses
  fb := s.fbBytes 0 s.fbSize
  orient := s.orient
  invert := s.invert
  profile := s.profile
  trace := s.trace

/-- The end of a run (R22): nothing further to issue, `SEQ` = IDLE, `REGEN` = 0. A refused run has no state. -/
abbrev State.Ended (s : State) : Prop :=
  s.hostPort = none ∧ s.hostQueue = [] ∧ s.seq = .idle ∧ s.regen = .off

/-- The block stands at a wait step (60_exceptions.md R273). -/
def State.waiting (s : State) : Bool := s.seq.isWait

/-! ## The trace of one cycle -/

/-- The "previous" plane's transfer payload (43_cog_update.md R222). -/
def State.prevPayload (s : State) : List Byte := s.fbBytes s.profile.planeSize s.profile.frameSize

/-- The "next" plane's transfer payload (R222). -/
def State.nextPayload (s : State) : List Byte := s.fbBytes 0 s.profile.frameSize

/-- The optional sends of the Configure phase (R222). -/
def State.configureVcom (s : State) : List Event :=
  if s.vc then
    if s.profile.altVoltageTable then
      [.idx 0x50#8 [s.profile.vcomA], .wait, .idx 0x50#8 [s.profile.vcomAlt], .wait]
    else [.idx 0x50#8 [s.profile.vcomA], .wait]
  else []

/-- The optional send of the Refresh phase (R222). -/
def State.refreshVcom (s : State) : List Event :=
  if s.vc then [.idx 0x50#8 [s.profile.vcomB]] else []

/-- The temperature byte of R222 written out. -/
def cycleTemperature (params : Params) (mode : UpdateMode) : Byte :=
  if mode = .globalMode then params.tempDefault else params.tempDefault ||| 0x40#8

/-- The two panel-settings bytes of R222 written out. -/
def cyclePsr (p : Profile) (mode : UpdateMode) : List Byte :=
  if mode = .globalMode then [p.psr0, p.psr1] else [p.psr0 ||| 0x10#8, p.psr1 ||| 0x02#8]

/-- What one cycle started in state `s` appends to `TRACE` (R222). -/
def State.cycleEvents (s : State) : List Event :=
  [.idx 0x00#8 [s.params.softResetData], .wait,
    .idx 0xE5#8 [cycleTemperature s.params s.mode], .wait,
    .idx 0xE0#8 [s.params.tempActivateData], .wait,
    .idx 0x00#8 (cyclePsr s.profile s.mode), .wait] ++
  s.configureVcom ++
  [.idx 0x10#8 s.prevPayload, .idx 0x13#8 s.nextPayload] ++
  s.refreshVcom ++
  [.cmd 0x04#8, .wait, .cmd 0x12#8, .wait, .cmd s.params.cmdPowerOff, .wait]

/-- How many steps a cycle takes when the line is ready at each wait: its events and the commit (R222, R321). -/
def State.cycleSteps (s : State) : Nat := s.cycleEvents.length + 1

/-- How many waits a cycle has. -/
def State.cycleWaits (s : State) : Nat := (s.cycleEvents.filter fun e => e == .wait).length

/-! ## The acceptance properties of the document (00_scope.md R23) -/

/-- The document's seven acceptance properties, as 95_test_vectors.md V1 to V7 transcribe them, of a begun block with
the port open. Where a property speaks of a whole cycle, the line reads ready at each of its waits. The indices V6 and
V7 name stand on log 20 (PRESUMED, D11), how REGENERATE is built on D19 (log 21) and log 18. -/
structure Acceptance (s : State) : Prop where
  /-- V1: a pixel written in range reads back in its colour, grey in the colour it was reduced to. -/
  roundTrip : ∀ x y c colour place, colourOperand c = some colour → toBuffer s.profile x y s.orient = some place →
    ∃ t, exec (.setPixel x y c) s = .next t ∧
      exec (.getPixel x y) t = .next (t.respond (.colour (reduceColour s.params colour x y place)))
  /-- V2: out of range a write changes nothing but the response and a read answers white. -/
  rejection : ∀ x y, ¬ InRect s.profile x y s.orient →
    (∀ c, c ≠ .reserved → exec (.setPixel x y c) s = .next (s.respond .done)) ∧
      exec (.getPixel x y) s = .next (s.respond (.colour .white))
  /-- V3: after clearing white and then black every pixel in range reads black. -/
  clearedBlack : ∀ x y, InRect s.profile x y s.orient →
    ∃ t u, exec (.clear .white) s = .next t ∧ exec (.clear .black) t = .next u ∧
      exec (.getPixel x y) u = .next (u.respond (.colour .black))
  /-- V4: after FLUSH the "previous" plane is the "next" plane as it stood, which itself has not changed. -/
  commit : ∀ rest, s.busyLine = List.replicate { s with mode := .fast }.cycleWaits true ++ rest →
    ∃ t u, exec .flush s = .next t ∧ runSteps t.cycleSteps t = .next u ∧ u.seq = .idle ∧
      ∀ a, a < s.profile.planeSize →
        u.fbByte a = s.fbByte a ∧ u.fbByte (s.profile.planeSize + a) = s.fbByte a
  /-- V5: REGENERATE runs exactly two cycles, one that sends a black frame and one that sends a white one. -/
  regenerate : ∀ rest, s.busyLine = List.replicate (2 * { s with mode := .fast }.cycleWaits) true ++ rest →
    ∃ b w t, exec .regenerate s = .next b ∧ runSteps b.cycleSteps b = .next w ∧
      runSteps w.cycleSteps w = .next t ∧ t.seq = .idle ∧
      t.trace = s.trace ++ (b.cycleEvents ++ [.delay] ++ w.cycleEvents) ∧
      b.nextPayload = List.replicate s.profile.frameSize (s.fillByte .black) ∧
      w.nextPayload = List.replicate s.profile.frameSize (s.fillByte .white)
  /-- V6: FLUSH on a fast-capable profile without the alternate table configures with exactly these five commands,
  each followed by a wait, before the first transfer. -/
  fastConfigure : s.profile.fastCapable = true → s.profile.altVoltageTable = false →
    ∀ rest, s.busyLine = List.replicate { s with mode := .fast }.cycleWaits true ++ rest →
      ∃ t u later, exec .flush s = .next t ∧ runSteps t.cycleSteps t = .next u ∧
        u.trace = s.trace ++
          [.idx 0x00#8 [s.params.softResetData], .wait,
            .idx 0xE5#8 [s.params.tempDefault ||| 0x40#8], .wait,
            .idx 0xE0#8 [s.params.tempActivateData], .wait,
            .idx 0x00#8 [s.profile.psr0 ||| 0x10#8, s.profile.psr1 ||| 0x02#8], .wait,
            .idx 0x50#8 [s.profile.vcomA], .wait, .idx 0x10#8 s.prevPayload] ++ later
  /-- V7: a FLUSHMODE answered Global sends no Vcom byte and the unmodified temperature and PSR bytes. -/
  globalConfigure : ∀ m answers rest, s.tempAnswers = .globalMode :: answers →
    s.busyLine = List.replicate { s with mode := .globalMode }.cycleWaits true ++ rest →
      ∃ t u later, exec (.flushMode m) s = .next t ∧ runSteps t.cycleSteps t = .next u ∧
        u.trace = s.trace ++ [.tempChk m .globalMode,
            .idx 0x00#8 [s.params.softResetData], .wait, .idx 0xE5#8 [s.params.tempDefault], .wait,
            .idx 0xE0#8 [s.params.tempActivateData], .wait,
            .idx 0x00#8 [s.profile.psr0, s.profile.psr1], .wait] ++ later ∧
        ∀ payload, Event.idx 0x50#8 payload ∉ later

end Sys2Proof.Machine
end

