-- ==== Sys2Proof/Certificates/Slice0/Obligations.lean ====
section
/-! DEFINITION. The statements for the provers. Each docstring names the rule of spec/ it formalises or rests on. -/

open Sys2Proof Sys2Proof.Machine

/-! ## Encoding -/

/-- The worked encodings of 30_encoding.md R109, read and written. The host word and its codes are a spelling the spec
marks as its own choice (D2, D3, D4, log 21). -/
def Obligations.WorkedEncodingsReadAndWrite : Prop :=
  ∀ pair ∈ ([(.beginOp 0x00150C#24, 0x1000150C#32),
      (.clear .white, 0x20000000#32), (.clear .black, 0x24000000#32), (.clear .grey, 0x28000000#32),
      (.setPixel 100 50 .black, 0x340C8032#32), (.setPixel 3 5 .grey, 0x38006005#32),
      (.getPixel 100 50, 0x400C8032#32),
      (.setOrient 0, 0x50000000#32), (.setOrient 1, 0x54000000#32), (.setOrient 2, 0x58000000#32),
      (.setOrient 3, 0x5C000000#32),
      (.setInvert false, 0x60000000#32), (.setInvert true, 0x64000000#32),
      (.flush, 0x70000000#32),
      (.flushMode .fast, 0x80000000#32), (.flushMode .partialMode, 0x84000000#32),
      (.flushMode .globalMode, 0x88000000#32), (.flushMode .noUpdate, 0x8C000000#32),
      (.regenerate, 0x90000000#32)] : List (Instr × HostWord)),
    encode 0x02#8 0 pair.1 = .host pair.2 ∧ decodeHostWord pair.2 = some pair.1

/-- Decoding the encoding of any well-formed instruction, host operation or panel command, gives it back with every
operand, for every frame size and every Power-Off code R113 allows (R101 to R107, R112, R113). The host word is a
spelling the spec marks as its own choice (D2, D3, D4, log 21), and the indices of the panel commands are its general
knowledge (D11, log 20). -/
def Obligations.DecodeOfEncodeIsTheInstruction : Prop :=
  ∀ (powerOff : Byte) (frameSize : Nat) (i : Instr), powerOff ≠ 0x04#8 → powerOff ≠ 0x12#8 →
    i.wellFormed = true → decode powerOff frameSize (encode powerOff frameSize i) = some i

/-- A host word that decodes has one meaning: the instruction is a well-formed host operation and encodes to that
very word, so no bit of the word is dropped (R101 to R107). The host word is a spelling the spec marks as its own choice
(D2, D3, D4, log 21). -/
def Obligations.EncodeOfDecodeIsTheWord : Prop :=
  ∀ (w : HostWord) (i : Instr), decodeHostWord w = some i →
    i.wellFormed = true ∧ i.isHostOp = true ∧
      ∀ (powerOff : Byte) (frameSize : Nat), encode powerOff frameSize i = .host w

/-- A host word that matches no row of the operation map is refused by name when the open port takes it, be it the next
of the host's program or the one presented on the port, and every word with operation code 0x0 or 0xA to 0xF matches
none (R103, R119). That such a word is refused is a choice the spec marks as its own (D34, log 21); the program and
the port word are the model's (log 7). -/
def Obligations.ReservedHostWordsAreRefused : Prop :=
  (∀ (s : State) (w : HostWord), s.PortOpen → (∀ r ∈ hostRows, w &&& r.mask ≠ r.pattern) →
      (∀ rest, s.hostPort = none → s.hostQueue = w :: rest → step s = .refused (.illegalHostWord w)) ∧
      (s.hostPort = some w → step s = .refused (.illegalHostWord w))) ∧
    ∀ w : HostWord, (w.toNat / 2 ^ 28 = 0 ∨ 10 ≤ w.toNat / 2 ^ 28) →
      ∀ r ∈ hostRows, w &&& r.mask ≠ r.pattern

/-- The transmission a send step makes reads back, by the decoder of the panel port, as the very command the step
sends: P_SOFT_RESET and P_PSR, which share index 0x00, are told apart (R112, R113, R121). The indices and payload
lengths are the spec's general knowledge (D11, log 20). -/
def Obligations.TransmissionsReadBackAsTheirCommand : Prop :=
  ∀ (s : State) (i : Instr), s.profile.WellFormed → s.params.powerOffWf = true → s.seq.command = some i →
    ∃ t e, exec i s = .next t ∧ t.trace = s.trace ++ [e] ∧ s.commandOf e = some i

/-! ## Steps run instructions -/

/-- With the port open a step runs the next word of the host's program, or the word presented on the port before it,
as the instruction it decodes to; with neither it does nothing (00_scope.md R8, 10_state.md R42, log 7, log 11). -/
def Obligations.StepRunsTheDecodedHostWord : Prop :=
  ∀ (s : State), s.PortOpen →
    (∀ w rest i, s.hostPort = none → s.hostQueue = w :: rest → decodeHostWord w = some i →
      step s = exec i { s with hostQueue := rest }) ∧
    (∀ w i, s.hostPort = some w → decodeHostWord w = some i → step s = exec i { s with hostPort := none }) ∧
    (s.hostPort = none → s.hostQueue = [] → step s = .next s)

/-- With a cycle running and no word presented, a step at a send step runs that step's panel command (R44, R112). -/
def Obligations.StepRunsThePanelCommandOfSeq : Prop :=
  ∀ (s : State) (i : Instr), s.hostPort = none → s.seq.command = some i → step s = exec i s

/-- The placed word is what runs next: after `withFetchWord` a step runs the instruction the table word decodes to,
on a state that differs from the given one in the port, `SEQ`, `REGEN` and `INIT` at most
(the model's own, log 7). -/
def Obligations.PlacedWordRunsNext : Prop :=
  ∀ (s : State) (nbits w : Nat) (i : Instr), decodeTableWord nbits w = some i →
    ∃ u, step (s.withFetchWord nbits w) = exec i u ∧
      u = { s with hostPort := none, seq := u.seq, regen := u.regen, init := u.init }

/-! ## Gates -/

/-- `INIT` gates every operation: while it is 0 every host operation but BEGIN is refused NotBegun, while it is 1 a
BEGIN is refused AlreadyBegun (10_state.md R40; with the port open, R279 (1) comes before). Both refusals are
choices the spec marks as its own (D23, log 21). -/
def Obligations.InitGatesEveryOperation : Prop :=
  ∀ (s : State), s.PortOpen →
    (s.init = false → ∀ i : Instr, i.isHostOp = true → (∀ code, i ≠ .beginOp code) →
      exec i s = .refused .notBegun) ∧
    (s.init = true → ∀ code, exec (.beginOp code) s = .refused .alreadyBegun)

/-- While a cycle runs every host operation is refused Reentrant, whatever its operands and whatever `INIT`, and a
step refuses any word presented then, before decoding it (10_state.md R42, 60_exceptions.md R279, R308). The refusal
is a choice the spec marks as its own (D26, log 21); that a presented word is the field hostPort is the model's
(log 10). -/
def Obligations.ClosedPortRefusesEveryOperation : Prop :=
  ∀ (s : State), ¬ s.PortOpen →
    (∀ i : Instr, i.isHostOp = true → exec i s = .refused .reentrant) ∧
    (∀ w, s.hostPort = some w → step s = .refused .reentrant)

/-- The reserved colour is refused by CLEAR and, for every coordinate, in range or not, by SETPIXEL; an orientation
outside 0 to 3 is refused by SETORIENT (30_encoding.md R105, R107, R182). The refusals are choices the spec marks as
its own (D3, D22, log 21). -/
def Obligations.IllegalOperandsAreRefused : Prop :=
  ∀ (s : State), s.Accepting →
    exec (.clear .reserved) s = .refused .illegalOperand ∧
    (∀ x y, exec (.setPixel x y .reserved) s = .refused .illegalOperand) ∧
    (∀ o : Int, (o < 0 ∨ 3 < o) → exec (.setOrient o) s = .refused .illegalOperand)

/-- The model is refused for a table with a row that breaks one of the conditions of R133, and for a Power-Off code
0x04 or 0x12 (R113); otherwise it is the block before BEGIN with those parameters (R276, U26). -/
def Obligations.InstantiationChecksTheParameters : Prop :=
  ∀ params : Params,
    ((∃ code r, (code, r) ∈ params.profileTable ∧
        (r.sizeV = 0 ∨ 2 ^ 16 ≤ r.sizeV ∨ r.sizeH = 0 ∨ 2 ^ 16 ≤ r.sizeH ∨ r.sizeH % 8 ≠ 0 ∨
          (r.dualHalf = true ∧ r.sizeV * (r.sizeH / 8) % 2 ≠ 0))) →
      instantiate params = .refused .illFormedTable) ∧
    ((∀ code r, (code, r) ∈ params.profileTable →
        0 < r.sizeV ∧ r.sizeV < 2 ^ 16 ∧ 0 < r.sizeH ∧ r.sizeH < 2 ^ 16 ∧ r.sizeH % 8 = 0 ∧
          (r.dualHalf = true → r.sizeV * (r.sizeH / 8) % 2 = 0)) →
      (params.cmdPowerOff = 0x04#8 ∨ params.cmdPowerOff = 0x12#8 →
        instantiate params = .refused .ambiguousPowerOff) ∧
      (params.cmdPowerOff ≠ 0x04#8 → params.cmdPowerOff ≠ 0x12#8 →
        instantiate params = .next { State.reset with params := params }))

/-! ## BEGIN and the resolver -/

/-- BEGIN (40_profile_resolver.md R136): every register of R54, all `2 * planeSize` bytes 0x00, an empty trace, and
nothing else but the response; refused when already begun. The values of `MODE` and `SEQ` and the second BEGIN are
choices the spec marks as its own (D18, D23, D32, log 21). -/
def Obligations.BeginLeavesTheResetState : Prop :=
  ∀ (s : State) (code : ScreenCode), s.PortOpen →
    (s.init = false → ∃ t, exec (.beginOp code) s = .next t ∧
      (∀ a, a < 2 * t.profile.planeSize → t.fbByte a = 0x00#8) ∧
      t = { s with
        profile := resolve s.params code
        fb := t.fb
        orient := .o0
        invert := false
        mode := .fast
        seq := .idle
        regen := .off
        trace := []
        init := true
        responses := s.responses ++ [.done] }) ∧
    (s.init = true → exec (.beginOp code) s = .refused .alreadyBegun)

/-- `Resolve` (R130): a code of `PROFILE_TABLE` gives the row that stands under it, the first one where the list has
several (the model's choice, log 22), with the derived fields of R131; a code the table lacks gives the degenerate
profile, whose five payload bytes of 0x00 are a choice the spec marks as its own (R132, D30, log 21). -/
def Obligations.ResolveFillsTheProfile : Prop :=
  ∀ (params : Params) (code : ScreenCode),
    (∀ before r after, params.profileTable = before ++ (code, r) :: after →
      (∀ entry ∈ before, entry.1 ≠ code) →
      resolve params code =
        { sizeV := r.sizeV, sizeH := r.sizeH, bufferRowBytes := r.sizeH / 8
          planeSize := r.sizeV * (r.sizeH / 8)
          frameSize := if r.dualHalf then r.sizeV * (r.sizeH / 8) / 2 else r.sizeV * (r.sizeH / 8)
          fastCapable := r.fastCapable, altVoltageTable := r.altVoltageTable
          psr0 := r.psr0, psr1 := r.psr1, vcomA := r.vcomA, vcomAlt := r.vcomAlt, vcomB := r.vcomB }) ∧
    ((∀ r, (code, r) ∉ params.profileTable) →
      resolve params code =
        { sizeV := 0, sizeH := 0, bufferRowBytes := 0, planeSize := 0, frameSize := 0
          fastCapable := false, altVoltageTable := false
          psr0 := 0x00#8, psr1 := 0x00#8, vcomA := 0x00#8, vcomAlt := 0x00#8, vcomB := 0x00#8 })

/-! ## Pixel addressing -/

/-- Orientations 0 and 2 (R152, R154, R156), over all integers: inside `[0, sizeH) x [0, sizeV)` the buffer coordinates
are (y, x) and, mirrored, (sizeV - 1 - y, sizeH - 1 - x), the offset is row times row bytes plus column over 8, the
bit 7 minus column mod 8; outside, the translation fails. -/
def Obligations.SwappingOrientationsFollowTheFormulas : Prop :=
  ∀ (p : Profile) (x y : Int) (o : Orientation), o = .o0 ∨ o = .o2 →
    (¬ (0 ≤ x ∧ x < p.sizeH ∧ 0 ≤ y ∧ y < p.sizeV) → toBuffer p x y o = none) ∧
    (0 ≤ x → x < p.sizeH → 0 ≤ y → y < p.sizeV →
      ∃ place, toBuffer p x y o = some place ∧
        ((place.bx : Int), (place.col : Int)) =
          (if o = .o0 then (y, x) else (p.sizeV - 1 - y, p.sizeH - 1 - x)) ∧
        place.off = place.bx * p.bufferRowBytes + place.col / 8 ∧
        place.bit = 7 - place.col % 8)

/-- Orientations 1 and 3, over all integers: inside `[0, sizeV) x [0, sizeH)` the buffer coordinates are
(x, sizeH - 1 - y) and (sizeV - 1 - x, y), with the same offset and bit; outside, the translation fails. Which of the
two mirrors which axis, and the rectangle, are choices the spec marks as its own (92_eei_decisions.md D5, D6,
log 19). -/
def Obligations.MirroringOrientationsFollowTheFormulas : Prop :=
  ∀ (p : Profile) (x y : Int) (o : Orientation), o = .o1 ∨ o = .o3 →
    (¬ (0 ≤ x ∧ x < p.sizeV ∧ 0 ≤ y ∧ y < p.sizeH) → toBuffer p x y o = none) ∧
    (0 ≤ x → x < p.sizeV → 0 ≤ y → y < p.sizeH →
      ∃ place, toBuffer p x y o = some place ∧
        ((place.bx : Int), (place.col : Int)) =
          (if o = .o1 then (x, p.sizeH - 1 - y) else (p.sizeV - 1 - x, y)) ∧
        place.off = place.bx * p.bufferRowBytes + place.col / 8 ∧
        place.bit = 7 - place.col % 8)

/-- For a fixed orientation the translation is a bijection from the valid rectangle onto the bits of a plane, and
`fromBuffer` is its inverse (R157, R158). -/
def Obligations.ToBufferIsABijectionOntoThePlane : Prop :=
  ∀ (p : Profile) (o : Orientation), p.WellFormed →
    (∀ x y place, toBuffer p x y o = some place →
      place.bx < p.sizeV ∧ place.col < p.sizeH ∧ place.off < p.planeSize ∧ place.bit ≤ 7 ∧
        fromBuffer p place.off place.bit o = (x, y)) ∧
    (∀ off bit, off < p.planeSize → bit ≤ 7 →
      ∃ place, toBuffer p (fromBuffer p off bit o).1 (fromBuffer p off bit o).2 o = some place ∧
        place.off = off ∧ place.bit = bit)

/-- Polarity on write and on read: the table of R160, and R161 as its inverse, whose answer flips with the flag. -/
def Obligations.PolarityRoundTrips : Prop :=
  (rawBit .white false = false ∧ rawBit .black false = true ∧ rawBit .white true = true ∧
      rawBit .black true = false) ∧
    ∀ c inv, colourOf (rawBit c inv) inv = c ∧ colourOf (rawBit c inv) (!inv) ≠ c

/-- The reduction of R159: white and black stay; a grey pixel is written black exactly when the parity of x + y, or of
bx + by with `GREY_FRAME` = buffer, is `GREY_BLACK_PARITY`. So grey is a checkerboard in either frame and for either
parity: pixels one step apart along x or y are written in different colours. Frame and parity are parameters the
spec leaves open (D7, log 2, log 21). -/
def Obligations.GreyWritesACheckerboard : Prop :=
  ∀ (params : Params) (p : Profile) (o : Orientation) (x y : Int) (here there : PixelPlace),
    toBuffer p x y o = some here →
    reduceColour params .white x y here = .white ∧
    reduceColour params .black x y here = .black ∧
    (params.greyFrame = .logical →
      (reduceColour params .grey x y here = .black ↔ (x + y) % 2 = (params.greyBlackParity.val : Int))) ∧
    (params.greyFrame = .buffer →
      (reduceColour params .grey x y here = .black ↔ (here.bx + here.col) % 2 = params.greyBlackParity.val)) ∧
    (toBuffer p (x + 1) y o = some there →
      reduceColour params .grey (x + 1) y there ≠ reduceColour params .grey x y here) ∧
    (toBuffer p x (y + 1) o = some there →
      reduceColour params .grey x (y + 1) there ≠ reduceColour params .grey x y here)

/-! ## Frame-buffer operations -/

/-- CLEAR white and CLEAR black (42_frame_buffer.md R180): the fill byte by `INVERT` over the whole "next" plane,
every other byte and register as before. -/
def Obligations.ClearSolidFillsTheNextPlane : Prop :=
  ∀ (s : State), s.Accepting →
    ∀ c fill, (c, s.invert, fill) ∈
        ([(.white, false, 0x00#8), (.black, false, 0xFF#8), (.white, true, 0xFF#8), (.black, true, 0x00#8)] :
          List (ColourArg × Bool × Byte)) →
      ∃ t, exec (.clear c) s = .next t ∧
        (∀ a, a < s.profile.planeSize → t.fbByte a = fill) ∧
        (∀ a, s.profile.planeSize ≤ a → t.fbByte a = s.fbByte a) ∧
        t = { s with fb := t.fb, responses := s.responses ++ [.done] }

/-- CLEAR grey (R181): buffer rows of 0x55 and 0xAA by turns over the whole "next" plane, whatever `INVERT` and
`ORIENT` (the spec marks that as its own choice, D8, log 21); every other byte and register as before. -/
def Obligations.ClearGreyWritesTheRowPatterns : Prop :=
  ∀ (s : State), s.Accepting → s.profile.WellFormed →
    ∃ t, exec (.clear .grey) s = .next t ∧
      (∀ bx j, bx < s.profile.sizeV → j < s.profile.bufferRowBytes →
        t.fbByte (bx * s.profile.bufferRowBytes + j) = if bx % 2 = 0 then 0x55#8 else 0xAA#8) ∧
      (∀ a, s.profile.planeSize ≤ a → t.fbByte a = s.fbByte a) ∧
      t = { s with fb := t.fb, responses := s.responses ++ [.done] }

/-- SETPIXEL inside the rectangle (R182): exactly the pixel's bit becomes the raw bit of the reduced colour, the other
seven bits of its byte, every other byte and every register but the response stay. -/
def Obligations.SetPixelWritesOneBit : Prop :=
  ∀ (s : State) (x y : Int) (c : ColourArg) (colour : Colour) (place : PixelPlace), s.Accepting →
    s.profile.WellFormed → colourOperand c = some colour → toBuffer s.profile x y s.orient = some place →
    ∃ t, exec (.setPixel x y c) s = .next t ∧
      (∀ k, k < 8 → (t.fbByte place.off).getLsbD k =
        if k = place.bit then rawBit (reduceColour s.params colour x y place) s.invert
        else (s.fbByte place.off).getLsbD k) ∧
      (∀ a, a ≠ place.off → t.fbByte a = s.fbByte a) ∧
      t = { s with fb := t.fb, responses := s.responses ++ [.done] }

/-- GETPIXEL inside the rectangle (R183): the response is the colour of the bit stored in the "next" plane by `INVERT`,
and nothing else changes. Which plane GETPIXEL reads is a choice the spec marks as its own (D33, log 21). -/
def Obligations.GetPixelReadsTheStoredBit : Prop :=
  ∀ (s : State) (x y : Int) (place : PixelPlace), s.Accepting → s.profile.WellFormed →
    toBuffer s.profile x y s.orient = some place →
    exec (.getPixel x y) s = .next { s with
      responses := s.responses ++
        [.colour (if (s.fbByte place.off).getLsbD place.bit ^^ s.invert then .black else .white)] }

/-- Outside the valid rectangle SETPIXEL changes nothing but answers as if done, and GETPIXEL responds white, whatever
`FB` holds and whatever `INVERT` (R187). -/
def Obligations.OutOfRangePixelsAreInert : Prop :=
  ∀ (s : State) (x y : Int), s.Accepting → ¬ InRect s.profile x y s.orient →
    (∀ c, c ≠ .reserved →
      exec (.setPixel x y c) s = .next { s with responses := s.responses ++ [.done] }) ∧
    exec (.getPixel x y) s = .next { s with responses := s.responses ++ [.colour .white] }

/-- Round trip (R186): a pixel written and read back with `ORIENT` and `INVERT` unchanged is the colour written, and
for grey the colour grey was reduced to. -/
def Obligations.PixelRoundTrip : Prop :=
  ∀ (s : State) (x y : Int) (c : ColourArg) (colour : Colour) (place : PixelPlace), s.Accepting →
    s.profile.WellFormed → colourOperand c = some colour → toBuffer s.profile x y s.orient = some place →
    ∃ t, exec (.setPixel x y c) s = .next t ∧
      exec (.getPixel x y) t = .next { t with
        responses := t.responses ++
          [.colour (match colour with
            | .white => .white
            | .black => .black
            | .grey => reduceColour s.params .grey x y place)] }

/-- `clear(white)` then `clear(black)` then `getPixel`: black everywhere inside the valid rectangle, white outside it
(R188). -/
def Obligations.ClearBlackThenEveryPixelReadsBlack : Prop :=
  ∀ (s : State) (x y : Int), s.Accepting → s.profile.WellFormed →
    ∃ t u, exec (.clear .white) s = .next t ∧ exec (.clear .black) t = .next u ∧
      exec (.getPixel x y) u = .next { u with
        responses := u.responses ++
          [.colour (if InRect s.profile x y s.orient then .black else .white)] }

/-- After CLEAR grey the raw bit of buffer pixel (bx, by) is (bx + by) mod 2, in every orientation, and GETPIXEL reads
it through `INVERT` (R181, R185; that `INVERT` is not applied by the clear is D8, log 21). -/
def Obligations.GreyClearReadsAsACheckerboard : Prop :=
  ∀ (s : State) (x y : Int) (place : PixelPlace), s.Accepting → s.profile.WellFormed →
    toBuffer s.profile x y s.orient = some place →
    ∃ t, exec (.clear .grey) s = .next t ∧
      exec (.getPixel x y) t = .next { t with
        responses := t.responses ++
          [.colour (if ((place.bx + place.col) % 2 == 1) ^^ s.invert then .black else .white)] }

/-- Changing `ORIENT` moves no stored pixel: a pixel written under one orientation is read under another at the logical
coordinate of the same plane bit (R163). -/
def Obligations.ChangingOrientationMovesNoPixel : Prop :=
  ∀ (s : State) (x y : Int) (o' : Orientation) (place : PixelPlace) (black : Bool), s.Accepting →
    s.profile.WellFormed → toBuffer s.profile x y s.orient = some place →
    ∃ t u, exec (.setPixel x y (if black then .black else .white)) s = .next t ∧
      exec (.setOrient (orientNumber o')) t = .next u ∧
      exec (.getPixel (fromBuffer s.profile place.off place.bit o').1
          (fromBuffer s.profile place.off place.bit o').2) u = .next { u with
        responses := u.responses ++ [.colour (if black then .black else .white)] }

/-- CLEAR and SETPIXEL are idempotent: done twice they leave the memory the first left (20_memory.md R81). -/
def Obligations.ClearAndSetPixelAreIdempotent : Prop :=
  ∀ (s t u : State),
    (∀ c, exec (.clear c) s = .next t → exec (.clear c) t = .next u → u.fb = t.fb) ∧
    (∀ x y c, exec (.setPixel x y c) s = .next t → exec (.setPixel x y c) t = .next u → u.fb = t.fb)

/-- The degenerate profile is inert (40_profile_resolver.md R134, 43_cog_update.md R230): every SETPIXEL is ignored,
every GETPIXEL responds white, a CLEAR changes no byte, and both data payloads of a cycle are empty. That an ignored
SETPIXEL responds Done is the model's reading (log 9). -/
def Obligations.DegenerateProfileIsInert : Prop :=
  ∀ (s : State), s.Accepting → s.profile = Profile.degenerate →
    (∀ x y c, c ≠ .reserved →
      exec (.setPixel x y c) s = .next { s with responses := s.responses ++ [.done] }) ∧
    (∀ x y, exec (.getPixel x y) s = .next { s with responses := s.responses ++ [.colour .white] }) ∧
    (∀ c, c ≠ .reserved → ∃ t, exec (.clear c) s = .next t ∧ ∀ a, t.fbByte a = s.fbByte a) ∧
    s.prevPayload = [] ∧ s.nextPayload = []

/-! ## SETORIENT and SETINVERT -/

/-- SETORIENT (41_pixel_addressing.md R164): `ORIENT` becomes the named state and nothing else but the response. -/
def Obligations.SetOrientSetsOrient : Prop :=
  ∀ (s : State) (o : Orientation), s.Accepting →
    exec (.setOrient (match o with | .o0 => 0 | .o1 => 1 | .o2 => 2 | .o3 => 3)) s =
      .next { s with orient := o, responses := s.responses ++ [.done] }

/-- SETINVERT (R165): `INVERT` becomes the flag, nothing else but the response changes, and every pixel inside the
rectangle reads as before exactly when the flag did not change. That the operation exists at all is the spec's own
addition (10_state.md R37, D29, log 21). -/
def Obligations.SetInvertFlipsWhatPixelsReadAs : Prop :=
  ∀ (s : State) (flag : Bool), s.Accepting →
    ∃ t, exec (.setInvert flag) s = .next t ∧
      t = { s with invert := flag, responses := s.responses ++ [.done] } ∧
      ∀ x y place, s.profile.WellFormed → toBuffer s.profile x y s.orient = some place →
        ∃ c d, exec (.getPixel x y) s = .next { s with responses := s.responses ++ [.colour c] } ∧
          exec (.getPixel x y) t = .next { t with responses := t.responses ++ [.colour d] } ∧
          (c = d ↔ s.invert = flag)

/-! ## Operations that run cycles -/

/-- FLUSH starts a cycle in mode Fast (43_cog_update.md R201, R224): `MODE`, `SEQ` and the operation in progress
change, nothing else; the collaborator is not asked, which is a choice the spec marks as its own (D16, log 21). -/
def Obligations.FlushStartsAFastCycle : Prop :=
  ∀ (s : State), s.Accepting →
    exec .flush s = .next { s with mode := .fast, seq := .cfgResetSend, inProgress := some .flush }

/-- FLUSHMODE applies the collaborator's answer, whatever it is: None reports, responds None and changes no register
and no byte; any other answer starts a cycle in it (R225, R226, R227). That the collaborator is asked first, for a
request of None too, and the None test is made on its answer, and that the report is one `REPORT` event, are choices
the spec marks as its own (D17, D28, log 21). With answers lined up the answer is the first of them, for any request
(the model's choice, log 6). -/
def Obligations.FlushModeAppliesTheAnswer : Prop :=
  ∀ (s : State) (m : UpdateMode), s.Accepting →
    ∃ answer t, exec (.flushMode m) s = .next t ∧
      (∀ a rest, s.tempAnswers = a :: rest → answer = a ∧ t.tempAnswers = rest ∧ t.draws = s.draws) ∧
      (answer = .noUpdate → t = { s with
        trace := s.trace ++ [.tempChk m .noUpdate, .report]
        responses := s.responses ++ [.mode .noUpdate]
        tempAnswers := t.tempAnswers
        draws := t.draws }) ∧
      (answer ≠ .noUpdate → t = { s with
        trace := s.trace ++ [.tempChk m answer]
        mode := answer
        seq := .cfgResetSend
        inProgress := some .flushMode
        tempAnswers := t.tempAnswers
        draws := t.draws })

/-- REGENERATE (R228) fills the "next" plane black by `INVERT`, sets `REGEN` to 1 and starts a cycle in mode Fast;
every other byte and register stays. How REGENERATE is built is a choice the spec marks as its own (D19, log 21). -/
def Obligations.RegenerateStartsTheBlackCycle : Prop :=
  ∀ (s : State), s.Accepting →
    ∃ t, exec .regenerate s = .next t ∧
      (∀ a, a < s.profile.planeSize → t.fbByte a = if s.invert then 0x00#8 else 0xFF#8) ∧
      (∀ a, s.profile.planeSize ≤ a → t.fbByte a = s.fbByte a) ∧
      t = { s with
        fb := t.fb, regen := .blackCycle, mode := .fast, seq := .cfgResetSend
        inProgress := some .regenerate }

/-! ## Panel commands -/

/-- The four unconditional sends of the Configure phase (43_cog_update.md R205 to R208): index, payload by mode, the
next step, and nothing else. The indices and payload lengths are the spec's general knowledge (D11, log 20), and PSR0
first is a choice the spec marks as its own (R76, D20, log 21). -/
def Obligations.ConfigureCommandsTransmit : Prop :=
  ∀ (s : State),
    (s.seq = .cfgResetSend → exec .pSoftReset s = .next { s with
      trace := s.trace ++ [.idx 0x00#8 [s.params.softResetData]], seq := .cfgResetWait }) ∧
    (s.seq = .cfgTempSend → exec .pTempInput s = .next { s with
      trace := s.trace ++ [.idx 0xE5#8
        [if s.mode = .globalMode then s.params.tempDefault else s.params.tempDefault ||| 0x40#8]]
      seq := .cfgTempWait }) ∧
    (s.seq = .cfgActSend → exec .pTempActivate s = .next { s with
      trace := s.trace ++ [.idx 0xE0#8 [s.params.tempActivateData]], seq := .cfgActWait }) ∧
    (s.seq = .cfgPsrSend → exec .pPsr s = .next { s with
      trace := s.trace ++ [.idx 0x00#8
        (if s.mode = .globalMode then [s.profile.psr0, s.profile.psr1]
         else [s.profile.psr0 ||| 0x10#8, s.profile.psr1 ||| 0x02#8])]
      seq := .cfgPsrWait })

/-- P_VCOM at its three sites (R209, R210, R215): the byte of the site under index 0x50, the next step, and nothing
else. The index, for the alternate byte too, is the spec's general knowledge (R116, D11, log 20). -/
def Obligations.VcomTransmitsTheByteOfItsSite : Prop :=
  ∀ (s : State),
    (s.seq = .cfgVcomaSend → exec .pVcom s = .next { s with
      trace := s.trace ++ [.idx 0x50#8 [s.profile.vcomA]], seq := .cfgVcomaWait }) ∧
    (s.seq = .cfgVcomaltSend → exec .pVcom s = .next { s with
      trace := s.trace ++ [.idx 0x50#8 [s.profile.vcomAlt]], seq := .cfgVcomaltWait }) ∧
    (s.seq = .rfrVcombSend → exec .pVcom s = .next { s with
      trace := s.trace ++ [.idx 0x50#8 [s.profile.vcomB]], seq := .rfrPonSend })

/-- The two transfers (R212, R213): the first `P.frameSize` bytes of the "previous" plane under 0x10, then of the
"next" plane under 0x13, in ascending address, as stored; the next step, and nothing else. The ascending order is a
choice the spec marks as its own (R76, D20, log 21). -/
def Obligations.TransfersSendTheStoredBytes : Prop :=
  ∀ (s : State), s.profile.WellFormed →
    (s.seq = .xferPrevSend → exec .pDataPrev s = .next { s with
      trace := s.trace ++ [.idx 0x10#8
        ((List.range s.profile.frameSize).map fun k => s.fbByte (s.profile.planeSize + k))]
      seq := .xferNextSend }) ∧
    (s.seq = .xferNextSend → exec .pDataNext s = .next { s with
      trace := s.trace ++ [.idx 0x13#8 ((List.range s.profile.frameSize).map fun k => s.fbByte k)]
      seq := .xferCommit })

/-- Power-On, Display-Refresh and Power-Off (R216, R217, R219): one code byte each, the next step, and nothing else. The
codes 0x04 and 0x12 and the form of all three are the spec's general knowledge (D11, log 20), and the Power-Off code
is the parameter of D12 (log 3). -/
def Obligations.PowerCommandsTransmit : Prop :=
  ∀ (s : State),
    (s.seq = .rfrPonSend → exec .pPowerOn s = .next { s with
      trace := s.trace ++ [.cmd 0x04#8], seq := .rfrPonWait }) ∧
    (s.seq = .rfrRefreshSend → exec .pRefresh s = .next { s with
      trace := s.trace ++ [.cmd 0x12#8], seq := .rfrRefreshWait }) ∧
    (s.seq = .offSend → exec .pPowerOff s = .next { s with
      trace := s.trace ++ [.cmd s.params.cmdPowerOff], seq := .offWait })

/-- A panel command asked for while `SEQ` stands at no step that sends it is refused: the block never emits it there
(30_encoding.md R121, 44_panel_commands.md R254; the refusal is the model's choice, log 12). -/
def Obligations.PanelCommandsAwayFromTheirStepAreRefused : Prop :=
  ∀ (s : State) (i : Instr), i.isHostOp = false → s.seq.command ≠ some i →
    exec i s = .refused .outOfSequence

/-! ## Cycle steps -/

/-- A wait step other than OFF_WAIT moves on by one `WAIT` event exactly when the panel presents ready; while it does
not, nothing but the sample of the line changes (43_cog_update.md R211, R218, 44_panel_commands.md R243; that a busy
sample is a step that changes nothing is the model's choice, log 5). -/
def Obligations.WaitStepsWaitForThePanel : Prop :=
  ∀ (s : State), s.hostPort = none → s.seq.isWait = true → s.seq ≠ .offWait →
    ∃ ready t, step s = .next t ∧
      (∀ r rest, s.busyLine = r :: rest → ready = r ∧ t.busyLine = rest ∧ t.draws = s.draws) ∧
      (ready = true → t = { s with
        trace := s.trace ++ [.wait], seq := s.nextSeq, busyLine := t.busyLine, draws := t.draws }) ∧
      (ready = false → t = { s with busyLine := t.busyLine, draws := t.draws })

/-- XFER_COMMIT (R214) always answers: the whole "next" plane over the "previous" one, on a dual-half panel too (the
spec marks that as its own choice, D21, log 21), the "next" plane unchanged, no event, and the next step. -/
def Obligations.CommitCopiesTheWholePlane : Prop :=
  ∀ (s : State), s.hostPort = none → s.seq = .xferCommit →
    ∃ t, step s = .next t ∧
      (∀ a, a < s.profile.planeSize → t.fbByte (s.profile.planeSize + a) = s.fbByte a) ∧
      (∀ a, a < s.profile.planeSize ∨ 2 * s.profile.planeSize ≤ a → t.fbByte a = s.fbByte a) ∧
      t = { s with
        fb := t.fb
        seq := if s.profile.fastCapable = true ∧ s.mode ≠ .globalMode then .rfrVcombSend else .rfrPonSend }

/-- OFF_WAIT (R220): while the panel is not ready nothing but the sample of the line changes (R243, 60_exceptions.md
R273; that a busy sample is a step is the model's choice, log 5); when it is, by `REGEN`: the operation finishes with
its response; or the white plane is filled and a second cycle starts after `DELAY`, in the same step (the model's
reading, log 18); or the REGENERATE finishes. The sample is the head of `busyLine`, or with none left the free value
(log 5), whatever it is. -/
def Obligations.OffWaitEndsTheCycleByRegen : Prop :=
  ∀ (s : State), s.hostPort = none → s.seq = .offWait →
    ∃ ready t, step s = .next t ∧
      (∀ r rest, s.busyLine = r :: rest → ready = r ∧ t.busyLine = rest ∧ t.draws = s.draws) ∧
      (s.busyLine = [] → ready = Config.panelReady s.draws ∧ t.busyLine = [] ∧ t.draws = s.draws + 1) ∧
      (ready = false → t = { s with busyLine := t.busyLine, draws := t.draws }) ∧
      (ready = true → s.regen = .off → t = { s with
        trace := s.trace ++ [.wait], seq := .idle, inProgress := none, busyLine := t.busyLine, draws := t.draws
        responses := s.responses ++ [if s.inProgress = some .flushMode then .mode s.mode else .done] }) ∧
      (ready = true → s.regen = .blackCycle →
        (∀ a, a < s.profile.planeSize → t.fbByte a = if s.invert then 0xFF#8 else 0x00#8) ∧
        (∀ a, s.profile.planeSize ≤ a → t.fbByte a = s.fbByte a) ∧
        t = { s with
          trace := s.trace ++ [.wait, .delay], fb := t.fb, regen := .whiteCycle, mode := .fast
          seq := .cfgResetSend, busyLine := t.busyLine, draws := t.draws }) ∧
      (ready = true → s.regen = .whiteCycle → s.inProgress = some .regenerate → t = { s with
        trace := s.trace ++ [.wait], regen := .off, seq := .idle, inProgress := none, busyLine := t.busyLine
        draws := t.draws, responses := s.responses ++ [.done] })

/-- `SEQ` only ever advances (10_state.md R43, 43_cog_update.md R204): a step of a running cycle leaves it where it is
(a busy sample), or moves it to `next(SEQ)`, which lies strictly ahead except from OFF_WAIT, or is the hand-over
of a REGENERATE's first cycle to its second, one step by the model's reading (log 18); that a busy sample is a step is
the model's choice (log 5). -/
def Obligations.SeqOnlyAdvances : Prop :=
  ∀ (s t : State), ¬ s.PortOpen → step s = .next t →
    (s.seq.isWait = true ∧ t.seq = s.seq ∧ t.trace = s.trace) ∨
      (t.seq = s.nextSeq ∧ (s.seq.code < t.seq.code ∨ (s.seq = .offWait ∧ t.seq = .idle))) ∨
      (s.seq = .offWait ∧ s.regen = .blackCycle ∧ t.seq = .cfgResetSend ∧ t.regen = .whiteCycle)

/-- A step of a running cycle that is not a wait is never blocked (20_memory.md R90): it answers a next state at
`next(SEQ)`. -/
def Obligations.NonWaitStepsAreAlwaysEnabled : Prop :=
  ∀ (s : State), FrameBufferInv s → s.hostPort = none → s.seq ≠ .idle → s.seq.isWait = false →
    ∃ t, step s = .next t ∧ t.seq = s.nextSeq

/-! ## Invariants -/

/-- The block before BEGIN (R55) has `INIT` = 0 and meets the three invariants, whatever the parameters of Config. -/
def Obligations.ResetMeetsTheInvariants : Prop :=
  State.reset.init = false ∧ FrameBufferInv State.reset ∧ SequencerInv State.reset ∧ PowerInv State.reset

/-- Every step keeps the frame buffer sound: well-formed parameters and profile, canonical memory, no byte outside `FB`
(10_state.md R48, 20_memory.md R71, R79). -/
def Obligations.StepKeepsTheFrameBufferSound : Prop :=
  ∀ (s t : State), FrameBufferInv s → step s = .next t → FrameBufferInv t

/-- Every step keeps the sequencer sound: the port is open exactly between operations, `REGEN` follows a REGENERATE,
`MODE` is never None, the optional steps only under their conditions (10_state.md R38, R40, R42, R47). -/
def Obligations.StepKeepsTheSequencerSound : Prop :=
  ∀ (s t : State), SequencerInv s → step s = .next t → SequencerInv t

/-- Every step keeps the power bracket: the trace shows the panel powered exactly from Power-On to Power-Off of one
cycle, so it is off whenever the host has the port (44_panel_commands.md R255, 60_exceptions.md R293). -/
def Obligations.StepKeepsThePowerBracket : Prop :=
  ∀ (s t : State), PowerInv s → step s = .next t → PowerInv t

/-- No step from a sound state reaches outside `FB`: the only fault of the model never happens (20_memory.md R79,
60_exceptions.md R270). -/
def Obligations.SoundStatesNeverFault : Prop :=
  ∀ (s : State) (f : Fault), FrameBufferInv s → step s ≠ .fault f

/-- From a sound sequencer a step refuses only because of a word on the host port or in the host's program, and never
as out of sequence (60_exceptions.md R276, R290). -/
def Obligations.OnlyTheHostCausesRefusals : Prop :=
  ∀ (s : State) (r : Refusal), SequencerInv s → step s = .refused r →
    (s.hostPort ≠ none ∨ s.hostQueue ≠ []) ∧ r ≠ .outOfSequence

/-- Once begun, the profile is immutable, the block stays begun, and the trace only grows (10_state.md R31, R50). -/
def Obligations.ProfileIsImmutableOnceBegun : Prop :=
  ∀ (s t : State), s.init = true → step s = .next t →
    t.profile = s.profile ∧ t.init = true ∧ t.params = s.params ∧ ∃ events, t.trace = s.trace ++ events

/-- Once begun, the "previous" plane is written by XFER_COMMIT and by no other step (20_memory.md R82,
70_reset_and_hazards.md R315). -/
def Obligations.PreviousPlaneIsWrittenByTheCommitOnly : Prop :=
  ∀ (s t : State), FrameBufferInv s → s.init = true → s.seq ≠ .xferCommit → step s = .next t →
    ∀ a, s.profile.planeSize ≤ a → t.fbByte a = s.fbByte a

/-- During a cycle the "next" plane is written by the white fill of a REGENERATE's hand-over only (R311, R316). -/
def Obligations.NextPlaneIsStableDuringACycle : Prop :=
  ∀ (s t : State), ¬ s.PortOpen → ¬ (s.seq = .offWait ∧ s.regen = .blackCycle) → step s = .next t →
    ∀ a, a < s.profile.planeSize → t.fbByte a = s.fbByte a

/-- Panel commands are emitted only inside a cycle: a step with the port open adds no IDX and no CMD event, whatever
operation it runs (44_panel_commands.md R257). -/
def Obligations.NoPanelCommandOutsideACycle : Prop :=
  ∀ (s t : State), s.PortOpen → step s = .next t →
    t.trace = [] ∨ ∃ events, t.trace = s.trace ++ events ∧
      ∀ e ∈ events, (∀ i payload, e ≠ .idx i payload) ∧ ∀ c, e ≠ .cmd c

/-- A cycle of FLUSH or FLUSHMODE never depends on `ORIENT` or `INVERT`: put to any other values they leave every step
the same but for themselves (41_pixel_addressing.md R164, R165, 20_memory.md R76). -/
def Obligations.CyclesIgnoreOrientAndInvert : Prop :=
  ∀ (s t : State) (o : Orientation) (b : Bool), s.seq ≠ .idle → s.regen = .off → step s = .next t →
    step { s with orient := o, invert := b } = .next { t with orient := o, invert := b }

/-! ## Whole cycles -/

/-- One cycle (43_cog_update.md R222): with the line ready at each wait it runs from CFG_RESET_SEND to IDLE, appends
exactly the events of R222, copies the plane, responds, and changes nothing else. The indices are the spec's general
knowledge (D11, log 20); where the waits stand, and that the whole plane is copied, are choices the spec marks as its
own (D14, D21, log 21). -/
def Obligations.OneCycleRunsToPowerOff : Prop :=
  ∀ (s : State) (rest : List Bool), s.seq = .cfgResetSend → s.regen = .off → s.hostPort = none →
    s.profile.WellFormed → s.busyLine = List.replicate s.cycleWaits true ++ rest →
    ∃ t, runSteps s.cycleSteps s = .next t ∧
      (∀ a, a < s.profile.planeSize →
        t.fbByte a = s.fbByte a ∧ t.fbByte (s.profile.planeSize + a) = s.fbByte a) ∧
      t = { s with
        seq := .idle
        inProgress := none
        fb := t.fb
        trace := s.trace ++ s.cycleEvents
        busyLine := rest
        responses := s.responses ++
          [if s.inProgress = some .flushMode then .mode s.mode else .done] }

/-- How long a cycle is: 16 events without Vcom commands, 19 with, 21 with the alternate table too; at most 22 steps
and 9 waits (R222, R321, 60_exceptions.md R273). The counts are of the list `cycleEvents`, which OneCycleRunsToPowerOff
ties to steps, and rest on where the waits stand, a choice the spec marks as its own (D14, log 21). -/
def Obligations.CycleLengths : Prop :=
  ∀ (s : State),
    s.cycleEvents.length =
      (if s.profile.fastCapable = true ∧ s.mode ≠ .globalMode then
        if s.profile.altVoltageTable = true then 21 else 19
       else 16) ∧
    s.cycleSteps ≤ 22 ∧ s.cycleWaits ≤ 9

/-- The two command scenarios of R232 on the events of a cycle: a fast-capable profile without the alternate table in
mode Fast configures with exactly five commands, each followed by a wait, before the first transfer; a cycle in mode
Global sends no Vcom byte and the unmodified temperature and PSR bytes. R232 names the commands; the indices 0x00, 0xE5,
0xE0 and 0x50 that stand for them here are the spec's general knowledge (D11, log 20). The events are the list
`cycleEvents`, which OneCycleRunsToPowerOff ties to steps. -/
def Obligations.CommandScenariosOfTheDocument : Prop :=
  ∀ (s : State),
    (s.profile.fastCapable = true → s.profile.altVoltageTable = false → s.mode = .fast →
      s.cycleEvents.take 11 =
        [.idx 0x00#8 [s.params.softResetData], .wait,
          .idx 0xE5#8 [s.params.tempDefault ||| 0x40#8], .wait,
          .idx 0xE0#8 [s.params.tempActivateData], .wait,
          .idx 0x00#8 [s.profile.psr0 ||| 0x10#8, s.profile.psr1 ||| 0x02#8], .wait,
          .idx 0x50#8 [s.profile.vcomA], .wait, .idx 0x10#8 s.prevPayload]) ∧
    (s.mode = .globalMode →
      (∀ payload, Event.idx 0x50#8 payload ∉ s.cycleEvents) ∧
      s.cycleEvents.take 8 =
        [.idx 0x00#8 [s.params.softResetData], .wait, .idx 0xE5#8 [s.params.tempDefault], .wait,
          .idx 0xE0#8 [s.params.tempActivateData], .wait, .idx 0x00#8 [s.profile.psr0, s.profile.psr1], .wait])

/-- REGENERATE (R228): exactly two cycles, black then white, with one `DELAY` between, whatever the planes held; the
first sends the old "previous" plane and the black fill, the second the black and the white fill; both planes end
white and the host gets Done. How REGENERATE is built and where the waits stand are choices the spec marks as its own
(D19, D14, log 21), the hand-over in one step is the model's reading (log 18), and the indices are the spec's general
knowledge (D11, log 20). -/
def Obligations.RegenerateRunsTwoCycles : Prop :=
  ∀ (s : State) (rest : List Bool), s.Accepting → s.hostPort = none → s.profile.WellFormed →
    s.busyLine = List.replicate (2 * { s with mode := .fast }.cycleWaits) true ++ rest →
    ∃ b w t, exec .regenerate s = .next b ∧ runSteps b.cycleSteps b = .next w ∧
      runSteps w.cycleSteps w = .next t ∧
      (∀ a, a < s.profile.planeSize →
        b.fbByte a = (if s.invert then 0x00#8 else 0xFF#8) ∧
        b.fbByte (s.profile.planeSize + a) = s.fbByte (s.profile.planeSize + a) ∧
        w.fbByte a = (if s.invert then 0xFF#8 else 0x00#8) ∧
        w.fbByte (s.profile.planeSize + a) = (if s.invert then 0x00#8 else 0xFF#8) ∧
        t.fbByte a = (if s.invert then 0xFF#8 else 0x00#8) ∧
        t.fbByte (s.profile.planeSize + a) = (if s.invert then 0xFF#8 else 0x00#8)) ∧
      b.mode = .fast ∧ w.mode = .fast ∧ b.profile = s.profile ∧ w.profile = s.profile ∧
      t = { s with
        mode := .fast
        fb := t.fb
        trace := s.trace ++ (b.cycleEvents ++ [.delay] ++ w.cycleEvents)
        busyLine := rest
        inProgress := none
        responses := s.responses ++ [.done] }
end

