-- ==== Sys2Proof/Laws/Memory.lean ====
section
/-! SUPPORT. The laws of memory: what a read after a write gives, and that every write keeps the canonical form. -/

namespace Sys2Proof.Machine.Memory

@[simp] theorem byteAt_nil (a : Nat) : byteAt [] a = unlistedByte := rfl

theorem byteAt_cons (k : Nat) (b : Byte) (m : Memory) (a : Nat) :
    byteAt ((k, b) :: m) a = if k = a then b else byteAt m a := rfl

theorem byteAt_of_not_listed {m : Memory} {a : Nat} (h : ∀ c ∈ m, c.1 ≠ a) :
    byteAt m a = unlistedByte := by
  induction m with
  | nil => rfl
  | cons c rest ih =>
    obtain ⟨k, b⟩ := c
    rw [byteAt_cons, if_neg (h (k, b) (by simp)), ih fun c hc => h c (by simp [hc])]

theorem byteAt_append_right {m n : Memory} {a : Nat} (h : ∀ c ∈ m, c.1 ≠ a) :
    byteAt (m ++ n) a = byteAt n a := by
  induction m with
  | nil => rfl
  | cons c rest ih =>
    obtain ⟨k, b⟩ := c
    rw [List.cons_append, byteAt_cons, if_neg (h (k, b) (by simp)), ih fun c hc => h c (by simp [hc])]

theorem byteAt_append_left {m n : Memory} {a : Nat} (h : ∀ c ∈ n, c.1 ≠ a) :
    byteAt (m ++ n) a = byteAt m a := by
  induction m with
  | nil => exact byteAt_of_not_listed h
  | cons c rest ih =>
    obtain ⟨k, b⟩ := c
    rw [List.cons_append, byteAt_cons, byteAt_cons, ih]

theorem byteAt_filter {m : Memory} {a : Nat} {q : Nat → Bool} (h : q a = true) :
    byteAt (m.filter fun c => q c.1) a = byteAt m a := by
  induction m with
  | nil => rfl
  | cons c rest ih =>
    obtain ⟨k, b⟩ := c
    by_cases hk : k = a
    · subst hk; rw [List.filter_cons_of_pos (by simpa using h), byteAt_cons, byteAt_cons]; simp
    · cases hq : q k
      · rw [List.filter_cons_of_neg (by simp [hq]), byteAt_cons, if_neg hk, ih]
      · rw [List.filter_cons_of_pos (by simpa using hq), byteAt_cons, byteAt_cons, ih]

theorem mem_cellsFrom {a : Nat} {bytes : List Byte} {c : Host.Cell} (h : c ∈ cellsFrom a bytes) :
    a ≤ c.1 ∧ c.1 < a + bytes.length ∧ c.2 ≠ unlistedByte := by
  induction bytes generalizing a with
  | nil => simp [cellsFrom] at h
  | cons b rest ih =>
    rw [cellsFrom] at h
    split at h
    · have := ih h; simp only [List.length_cons]; exact ⟨by omega, by omega, this.2.2⟩
    · rename_i hb
      rcases List.mem_cons.mp h with rfl | h
      · exact ⟨Nat.le_refl _, by simp, hb⟩
      · have := ih h; simp only [List.length_cons]; exact ⟨by omega, by omega, this.2.2⟩

theorem byteAt_cellsFrom {a x : Nat} {bytes : List Byte} (h : a ≤ x) :
    byteAt (cellsFrom a bytes) x = bytes.getD (x - a) unlistedByte := by
  induction bytes generalizing a with
  | nil => simp [cellsFrom]
  | cons b rest ih =>
    rcases Nat.eq_or_lt_of_le h with rfl | hlt
    · rw [cellsFrom]
      split
      · rename_i hb
        rw [byteAt_of_not_listed fun c hc => by have := mem_cellsFrom hc; omega]
        simp [hb]
      · simp [byteAt_cons]
    · have hx : x - a = (x - (a + 1)) + 1 := by omega
      rw [cellsFrom, hx, List.getD_cons_succ, ← ih (by omega)]
      split
      · rfl
      · rw [byteAt_cons, if_neg (by omega)]

/-- A read after a write: the written byte inside the written range, the old byte elsewhere. -/
theorem byteAt_write (m : Memory) (a : Nat) (bytes : List Byte) (x : Nat) :
    (m.write a bytes).byteAt x =
      if a ≤ x ∧ x < a + bytes.length then bytes.getD (x - a) unlistedByte else m.byteAt x := by
  have low : a ≤ x → ∀ c ∈ m.filter (fun c => decide (c.1 < a)), c.1 ≠ x := by
    intro hx c hc
    have := (List.mem_filter.mp hc).2
    simp only [decide_eq_true_eq] at this
    omega
  have high : x < a + bytes.length →
      ∀ c ∈ m.filter (fun c => decide (a + bytes.length ≤ c.1)), c.1 ≠ x := by
    intro hx c hc
    have := (List.mem_filter.mp hc).2
    simp only [decide_eq_true_eq] at this
    omega
  unfold write
  rcases Nat.lt_or_ge x a with hx | hx
  · rw [if_neg (by omega), byteAt_append_left, byteAt_filter (q := fun k => decide (k < a)) (by simpa using hx)]
    intro c hc
    rcases List.mem_append.mp hc with hc | hc
    · have := mem_cellsFrom hc; omega
    · exact high (by omega) c hc
  · rw [byteAt_append_right (low hx)]
    rcases Nat.lt_or_ge x (a + bytes.length) with hx' | hx'
    · rw [if_pos ⟨hx, hx'⟩, byteAt_append_left (high hx'), byteAt_cellsFrom hx]
    · rw [if_neg (by omega), byteAt_append_right,
        byteAt_filter (q := fun k => decide (a + bytes.length ≤ k)) (by simpa using hx')]
      intro c hc
      have := mem_cellsFrom hc
      omega

theorem pairwise_cellsFrom (a : Nat) (bytes : List Byte) :
    (cellsFrom a bytes).Pairwise fun c d => c.1 < d.1 := by
  induction bytes generalizing a with
  | nil => simp [cellsFrom]
  | cons b rest ih =>
    rw [cellsFrom]
    split
    · exact ih _
    · exact List.pairwise_cons.mpr ⟨fun c hc => by have := mem_cellsFrom hc; simp only; omega, ih _⟩

/-- Every write keeps the canonical form. -/
theorem wf_write {m : Memory} (h : m.wf) (a : Nat) (bytes : List Byte) : (m.write a bytes).wf := by
  refine ⟨?_, ?_⟩
  · unfold write
    refine List.pairwise_append.mpr ⟨h.1.filter _, ?_, ?_⟩
    · refine List.pairwise_append.mpr ⟨pairwise_cellsFrom a bytes, h.1.filter _, ?_⟩
      intro c hc d hd
      have := mem_cellsFrom hc
      have := (List.mem_filter.mp hd).2
      simp only [decide_eq_true_eq] at this
      omega
    · intro c hc d hd
      have hc := (List.mem_filter.mp hc).2
      simp only [decide_eq_true_eq] at hc
      rcases List.mem_append.mp hd with hd | hd
      · have := mem_cellsFrom hd; omega
      · have := (List.mem_filter.mp hd).2
        simp only [decide_eq_true_eq] at this
        omega
  · intro c hc
    unfold write at hc
    rcases List.mem_append.mp hc with hc | hc
    · exact h.2 c (List.mem_filter.mp hc).1
    · rcases List.mem_append.mp hc with hc | hc
      · exact (mem_cellsFrom hc).2.2
      · exact h.2 c (List.mem_filter.mp hc).1

/-- A write inside a range of addresses lists no address outside it. -/
theorem write_inside {m : Memory} {size : Nat} (h : ∀ c ∈ m, c.1 < size) {a : Nat} {bytes : List Byte}
    (ha : a + bytes.length ≤ size) : ∀ c ∈ m.write a bytes, c.1 < size := by
  intro c hc
  unfold write at hc
  rcases List.mem_append.mp hc with hc | hc
  · exact h c (List.mem_filter.mp hc).1
  · rcases List.mem_append.mp hc with hc | hc
    · have := mem_cellsFrom hc; omega
    · exact h c (List.mem_filter.mp hc).1

/-- The empty memory is in canonical form. -/
theorem wf_nil : wf [] := ⟨List.Pairwise.nil, by simp⟩

end Sys2Proof.Machine.Memory
end

