-- ==== Sys2Proof/Laws/State.lean ====
section
/-! SUPPORT. One lemma per field and register update, so that no later proof unfolds a record update. -/

namespace Sys2Proof.Machine

variable (s : State)

/-! ### `setFb` -/

@[simp] theorem State.setFb_profile (m : Memory) : (s.setFb m).profile = s.profile := rfl
@[simp] theorem State.setFb_init (m : Memory) : (s.setFb m).init = s.init := rfl
@[simp] theorem State.setFb_orient (m : Memory) : (s.setFb m).orient = s.orient := rfl
@[simp] theorem State.setFb_invert (m : Memory) : (s.setFb m).invert = s.invert := rfl
@[simp] theorem State.setFb_mode (m : Memory) : (s.setFb m).mode = s.mode := rfl
@[simp] theorem State.setFb_seq (m : Memory) : (s.setFb m).seq = s.seq := rfl
@[simp] theorem State.setFb_regen (m : Memory) : (s.setFb m).regen = s.regen := rfl
@[simp] theorem State.setFb_fb (m : Memory) : (s.setFb m).fb = m := rfl
@[simp] theorem State.setFb_trace (m : Memory) : (s.setFb m).trace = s.trace := rfl
@[simp] theorem State.setFb_responses (m : Memory) : (s.setFb m).responses = s.responses := rfl
@[simp] theorem State.setFb_inProgress (m : Memory) : (s.setFb m).inProgress = s.inProgress := rfl
@[simp] theorem State.setFb_hostPort (m : Memory) : (s.setFb m).hostPort = s.hostPort := rfl
@[simp] theorem State.setFb_hostQueue (m : Memory) : (s.setFb m).hostQueue = s.hostQueue := rfl
@[simp] theorem State.setFb_busyLine (m : Memory) : (s.setFb m).busyLine = s.busyLine := rfl
@[simp] theorem State.setFb_tempAnswers (m : Memory) : (s.setFb m).tempAnswers = s.tempAnswers := rfl
@[simp] theorem State.setFb_draws (m : Memory) : (s.setFb m).draws = s.draws := rfl
@[simp] theorem State.setFb_params (m : Memory) : (s.setFb m).params = s.params := rfl

/-! ### `setSeq` -/

@[simp] theorem State.setSeq_profile (q : Seq) : (s.setSeq q).profile = s.profile := rfl
@[simp] theorem State.setSeq_init (q : Seq) : (s.setSeq q).init = s.init := rfl
@[simp] theorem State.setSeq_orient (q : Seq) : (s.setSeq q).orient = s.orient := rfl
@[simp] theorem State.setSeq_invert (q : Seq) : (s.setSeq q).invert = s.invert := rfl
@[simp] theorem State.setSeq_mode (q : Seq) : (s.setSeq q).mode = s.mode := rfl
@[simp] theorem State.setSeq_seq (q : Seq) : (s.setSeq q).seq = q := rfl
@[simp] theorem State.setSeq_regen (q : Seq) : (s.setSeq q).regen = s.regen := rfl
@[simp] theorem State.setSeq_fb (q : Seq) : (s.setSeq q).fb = s.fb := rfl
@[simp] theorem State.setSeq_trace (q : Seq) : (s.setSeq q).trace = s.trace := rfl
@[simp] theorem State.setSeq_responses (q : Seq) : (s.setSeq q).responses = s.responses := rfl
@[simp] theorem State.setSeq_inProgress (q : Seq) : (s.setSeq q).inProgress = s.inProgress := rfl
@[simp] theorem State.setSeq_hostPort (q : Seq) : (s.setSeq q).hostPort = s.hostPort := rfl
@[simp] theorem State.setSeq_hostQueue (q : Seq) : (s.setSeq q).hostQueue = s.hostQueue := rfl
@[simp] theorem State.setSeq_busyLine (q : Seq) : (s.setSeq q).busyLine = s.busyLine := rfl
@[simp] theorem State.setSeq_tempAnswers (q : Seq) : (s.setSeq q).tempAnswers = s.tempAnswers := rfl
@[simp] theorem State.setSeq_draws (q : Seq) : (s.setSeq q).draws = s.draws := rfl
@[simp] theorem State.setSeq_params (q : Seq) : (s.setSeq q).params = s.params := rfl

/-! ### `setMode` -/

@[simp] theorem State.setMode_profile (m : UpdateMode) : (s.setMode m).profile = s.profile := rfl
@[simp] theorem State.setMode_init (m : UpdateMode) : (s.setMode m).init = s.init := rfl
@[simp] theorem State.setMode_orient (m : UpdateMode) : (s.setMode m).orient = s.orient := rfl
@[simp] theorem State.setMode_invert (m : UpdateMode) : (s.setMode m).invert = s.invert := rfl
@[simp] theorem State.setMode_mode (m : UpdateMode) : (s.setMode m).mode = m := rfl
@[simp] theorem State.setMode_seq (m : UpdateMode) : (s.setMode m).seq = s.seq := rfl
@[simp] theorem State.setMode_regen (m : UpdateMode) : (s.setMode m).regen = s.regen := rfl
@[simp] theorem State.setMode_fb (m : UpdateMode) : (s.setMode m).fb = s.fb := rfl
@[simp] theorem State.setMode_trace (m : UpdateMode) : (s.setMode m).trace = s.trace := rfl
@[simp] theorem State.setMode_responses (m : UpdateMode) : (s.setMode m).responses = s.responses := rfl
@[simp] theorem State.setMode_inProgress (m : UpdateMode) : (s.setMode m).inProgress = s.inProgress := rfl
@[simp] theorem State.setMode_hostPort (m : UpdateMode) : (s.setMode m).hostPort = s.hostPort := rfl
@[simp] theorem State.setMode_hostQueue (m : UpdateMode) : (s.setMode m).hostQueue = s.hostQueue := rfl
@[simp] theorem State.setMode_busyLine (m : UpdateMode) : (s.setMode m).busyLine = s.busyLine := rfl
@[simp] theorem State.setMode_tempAnswers (m : UpdateMode) : (s.setMode m).tempAnswers = s.tempAnswers := rfl
@[simp] theorem State.setMode_draws (m : UpdateMode) : (s.setMode m).draws = s.draws := rfl
@[simp] theorem State.setMode_params (m : UpdateMode) : (s.setMode m).params = s.params := rfl

/-! ### `setRegen` -/

@[simp] theorem State.setRegen_profile (r : Regen) : (s.setRegen r).profile = s.profile := rfl
@[simp] theorem State.setRegen_init (r : Regen) : (s.setRegen r).init = s.init := rfl
@[simp] theorem State.setRegen_orient (r : Regen) : (s.setRegen r).orient = s.orient := rfl
@[simp] theorem State.setRegen_invert (r : Regen) : (s.setRegen r).invert = s.invert := rfl
@[simp] theorem State.setRegen_mode (r : Regen) : (s.setRegen r).mode = s.mode := rfl
@[simp] theorem State.setRegen_seq (r : Regen) : (s.setRegen r).seq = s.seq := rfl
@[simp] theorem State.setRegen_regen (r : Regen) : (s.setRegen r).regen = r := rfl
@[simp] theorem State.setRegen_fb (r : Regen) : (s.setRegen r).fb = s.fb := rfl
@[simp] theorem State.setRegen_trace (r : Regen) : (s.setRegen r).trace = s.trace := rfl
@[simp] theorem State.setRegen_responses (r : Regen) : (s.setRegen r).responses = s.responses := rfl
@[simp] theorem State.setRegen_inProgress (r : Regen) : (s.setRegen r).inProgress = s.inProgress := rfl
@[simp] theorem State.setRegen_hostPort (r : Regen) : (s.setRegen r).hostPort = s.hostPort := rfl
@[simp] theorem State.setRegen_hostQueue (r : Regen) : (s.setRegen r).hostQueue = s.hostQueue := rfl
@[simp] theorem State.setRegen_busyLine (r : Regen) : (s.setRegen r).busyLine = s.busyLine := rfl
@[simp] theorem State.setRegen_tempAnswers (r : Regen) : (s.setRegen r).tempAnswers = s.tempAnswers := rfl
@[simp] theorem State.setRegen_draws (r : Regen) : (s.setRegen r).draws = s.draws := rfl
@[simp] theorem State.setRegen_params (r : Regen) : (s.setRegen r).params = s.params := rfl

/-! ### `setOrientation` -/

@[simp] theorem State.setOrientation_profile (o : Orientation) : (s.setOrientation o).profile = s.profile := rfl
@[simp] theorem State.setOrientation_init (o : Orientation) : (s.setOrientation o).init = s.init := rfl
@[simp] theorem State.setOrientation_orient (o : Orientation) : (s.setOrientation o).orient = o := rfl
@[simp] theorem State.setOrientation_invert (o : Orientation) : (s.setOrientation o).invert = s.invert := rfl
@[simp] theorem State.setOrientation_mode (o : Orientation) : (s.setOrientation o).mode = s.mode := rfl
@[simp] theorem State.setOrientation_seq (o : Orientation) : (s.setOrientation o).seq = s.seq := rfl
@[simp] theorem State.setOrientation_regen (o : Orientation) : (s.setOrientation o).regen = s.regen := rfl
@[simp] theorem State.setOrientation_fb (o : Orientation) : (s.setOrientation o).fb = s.fb := rfl
@[simp] theorem State.setOrientation_trace (o : Orientation) : (s.setOrientation o).trace = s.trace := rfl
@[simp] theorem State.setOrientation_responses (o : Orientation) : (s.setOrientation o).responses = s.responses := rfl
@[simp] theorem State.setOrientation_inProgress (o : Orientation) : (s.setOrientation o).inProgress = s.inProgress := rfl
@[simp] theorem State.setOrientation_hostPort (o : Orientation) : (s.setOrientation o).hostPort = s.hostPort := rfl
@[simp] theorem State.setOrientation_hostQueue (o : Orientation) : (s.setOrientation o).hostQueue = s.hostQueue := rfl
@[simp] theorem State.setOrientation_busyLine (o : Orientation) : (s.setOrientation o).busyLine = s.busyLine := rfl
@[simp] theorem State.setOrientation_tempAnswers (o : Orientation) : (s.setOrientation o).tempAnswers = s.tempAnswers := rfl
@[simp] theorem State.setOrientation_draws (o : Orientation) : (s.setOrientation o).draws = s.draws := rfl
@[simp] theorem State.setOrientation_params (o : Orientation) : (s.setOrientation o).params = s.params := rfl

/-! ### `setInversion` -/

@[simp] theorem State.setInversion_profile (b : Bool) : (s.setInversion b).profile = s.profile := rfl
@[simp] theorem State.setInversion_init (b : Bool) : (s.setInversion b).init = s.init := rfl
@[simp] theorem State.setInversion_orient (b : Bool) : (s.setInversion b).orient = s.orient := rfl
@[simp] theorem State.setInversion_invert (b : Bool) : (s.setInversion b).invert = b := rfl
@[simp] theorem State.setInversion_mode (b : Bool) : (s.setInversion b).mode = s.mode := rfl
@[simp] theorem State.setInversion_seq (b : Bool) : (s.setInversion b).seq = s.seq := rfl
@[simp] theorem State.setInversion_regen (b : Bool) : (s.setInversion b).regen = s.regen := rfl
@[simp] theorem State.setInversion_fb (b : Bool) : (s.setInversion b).fb = s.fb := rfl
@[simp] theorem State.setInversion_trace (b : Bool) : (s.setInversion b).trace = s.trace := rfl
@[simp] theorem State.setInversion_responses (b : Bool) : (s.setInversion b).responses = s.responses := rfl
@[simp] theorem State.setInversion_inProgress (b : Bool) : (s.setInversion b).inProgress = s.inProgress := rfl
@[simp] theorem State.setInversion_hostPort (b : Bool) : (s.setInversion b).hostPort = s.hostPort := rfl
@[simp] theorem State.setInversion_hostQueue (b : Bool) : (s.setInversion b).hostQueue = s.hostQueue := rfl
@[simp] theorem State.setInversion_busyLine (b : Bool) : (s.setInversion b).busyLine = s.busyLine := rfl
@[simp] theorem State.setInversion_tempAnswers (b : Bool) : (s.setInversion b).tempAnswers = s.tempAnswers := rfl
@[simp] theorem State.setInversion_draws (b : Bool) : (s.setInversion b).draws = s.draws := rfl
@[simp] theorem State.setInversion_params (b : Bool) : (s.setInversion b).params = s.params := rfl

/-! ### `setInProgress` -/

@[simp] theorem State.setInProgress_profile (op : Option CycleOp) : (s.setInProgress op).profile = s.profile := rfl
@[simp] theorem State.setInProgress_init (op : Option CycleOp) : (s.setInProgress op).init = s.init := rfl
@[simp] theorem State.setInProgress_orient (op : Option CycleOp) : (s.setInProgress op).orient = s.orient := rfl
@[simp] theorem State.setInProgress_invert (op : Option CycleOp) : (s.setInProgress op).invert = s.invert := rfl
@[simp] theorem State.setInProgress_mode (op : Option CycleOp) : (s.setInProgress op).mode = s.mode := rfl
@[simp] theorem State.setInProgress_seq (op : Option CycleOp) : (s.setInProgress op).seq = s.seq := rfl
@[simp] theorem State.setInProgress_regen (op : Option CycleOp) : (s.setInProgress op).regen = s.regen := rfl
@[simp] theorem State.setInProgress_fb (op : Option CycleOp) : (s.setInProgress op).fb = s.fb := rfl
@[simp] theorem State.setInProgress_trace (op : Option CycleOp) : (s.setInProgress op).trace = s.trace := rfl
@[simp] theorem State.setInProgress_responses (op : Option CycleOp) : (s.setInProgress op).responses = s.responses := rfl
@[simp] theorem State.setInProgress_inProgress (op : Option CycleOp) : (s.setInProgress op).inProgress = op := rfl
@[simp] theorem State.setInProgress_hostPort (op : Option CycleOp) : (s.setInProgress op).hostPort = s.hostPort := rfl
@[simp] theorem State.setInProgress_hostQueue (op : Option CycleOp) : (s.setInProgress op).hostQueue = s.hostQueue := rfl
@[simp] theorem State.setInProgress_busyLine (op : Option CycleOp) : (s.setInProgress op).busyLine = s.busyLine := rfl
@[simp] theorem State.setInProgress_tempAnswers (op : Option CycleOp) : (s.setInProgress op).tempAnswers = s.tempAnswers := rfl
@[simp] theorem State.setInProgress_draws (op : Option CycleOp) : (s.setInProgress op).draws = s.draws := rfl
@[simp] theorem State.setInProgress_params (op : Option CycleOp) : (s.setInProgress op).params = s.params := rfl

/-! ### `emit` -/

@[simp] theorem State.emit_profile (e : Event) : (s.emit e).profile = s.profile := rfl
@[simp] theorem State.emit_init (e : Event) : (s.emit e).init = s.init := rfl
@[simp] theorem State.emit_orient (e : Event) : (s.emit e).orient = s.orient := rfl
@[simp] theorem State.emit_invert (e : Event) : (s.emit e).invert = s.invert := rfl
@[simp] theorem State.emit_mode (e : Event) : (s.emit e).mode = s.mode := rfl
@[simp] theorem State.emit_seq (e : Event) : (s.emit e).seq = s.seq := rfl
@[simp] theorem State.emit_regen (e : Event) : (s.emit e).regen = s.regen := rfl
@[simp] theorem State.emit_fb (e : Event) : (s.emit e).fb = s.fb := rfl
@[simp] theorem State.emit_trace (e : Event) : (s.emit e).trace = s.trace ++ [e] := rfl
@[simp] theorem State.emit_responses (e : Event) : (s.emit e).responses = s.responses := rfl
@[simp] theorem State.emit_inProgress (e : Event) : (s.emit e).inProgress = s.inProgress := rfl
@[simp] theorem State.emit_hostPort (e : Event) : (s.emit e).hostPort = s.hostPort := rfl
@[simp] theorem State.emit_hostQueue (e : Event) : (s.emit e).hostQueue = s.hostQueue := rfl
@[simp] theorem State.emit_busyLine (e : Event) : (s.emit e).busyLine = s.busyLine := rfl
@[simp] theorem State.emit_tempAnswers (e : Event) : (s.emit e).tempAnswers = s.tempAnswers := rfl
@[simp] theorem State.emit_draws (e : Event) : (s.emit e).draws = s.draws := rfl
@[simp] theorem State.emit_params (e : Event) : (s.emit e).params = s.params := rfl

/-! ### `respond` -/

@[simp] theorem State.respond_profile (r : Response) : (s.respond r).profile = s.profile := rfl
@[simp] theorem State.respond_init (r : Response) : (s.respond r).init = s.init := rfl
@[simp] theorem State.respond_orient (r : Response) : (s.respond r).orient = s.orient := rfl
@[simp] theorem State.respond_invert (r : Response) : (s.respond r).invert = s.invert := rfl
@[simp] theorem State.respond_mode (r : Response) : (s.respond r).mode = s.mode := rfl
@[simp] theorem State.respond_seq (r : Response) : (s.respond r).seq = s.seq := rfl
@[simp] theorem State.respond_regen (r : Response) : (s.respond r).regen = s.regen := rfl
@[simp] theorem State.respond_fb (r : Response) : (s.respond r).fb = s.fb := rfl
@[simp] theorem State.respond_trace (r : Response) : (s.respond r).trace = s.trace := rfl
@[simp] theorem State.respond_responses (r : Response) : (s.respond r).responses = s.responses ++ [r] := rfl
@[simp] theorem State.respond_inProgress (r : Response) : (s.respond r).inProgress = s.inProgress := rfl
@[simp] theorem State.respond_hostPort (r : Response) : (s.respond r).hostPort = s.hostPort := rfl
@[simp] theorem State.respond_hostQueue (r : Response) : (s.respond r).hostQueue = s.hostQueue := rfl
@[simp] theorem State.respond_busyLine (r : Response) : (s.respond r).busyLine = s.busyLine := rfl
@[simp] theorem State.respond_tempAnswers (r : Response) : (s.respond r).tempAnswers = s.tempAnswers := rfl
@[simp] theorem State.respond_draws (r : Response) : (s.respond r).draws = s.draws := rfl
@[simp] theorem State.respond_params (r : Response) : (s.respond r).params = s.params := rfl

/-! ### `startCycle` -/

@[simp] theorem State.startCycle_profile (m : UpdateMode) : (s.startCycle m).profile = s.profile := rfl
@[simp] theorem State.startCycle_init (m : UpdateMode) : (s.startCycle m).init = s.init := rfl
@[simp] theorem State.startCycle_orient (m : UpdateMode) : (s.startCycle m).orient = s.orient := rfl
@[simp] theorem State.startCycle_invert (m : UpdateMode) : (s.startCycle m).invert = s.invert := rfl
@[simp] theorem State.startCycle_mode (m : UpdateMode) : (s.startCycle m).mode = m := rfl
@[simp] theorem State.startCycle_seq (m : UpdateMode) : (s.startCycle m).seq = .cfgResetSend := rfl
@[simp] theorem State.startCycle_regen (m : UpdateMode) : (s.startCycle m).regen = s.regen := rfl
@[simp] theorem State.startCycle_fb (m : UpdateMode) : (s.startCycle m).fb = s.fb := rfl
@[simp] theorem State.startCycle_trace (m : UpdateMode) : (s.startCycle m).trace = s.trace := rfl
@[simp] theorem State.startCycle_responses (m : UpdateMode) : (s.startCycle m).responses = s.responses := rfl
@[simp] theorem State.startCycle_inProgress (m : UpdateMode) : (s.startCycle m).inProgress = s.inProgress := rfl
@[simp] theorem State.startCycle_hostPort (m : UpdateMode) : (s.startCycle m).hostPort = s.hostPort := rfl
@[simp] theorem State.startCycle_hostQueue (m : UpdateMode) : (s.startCycle m).hostQueue = s.hostQueue := rfl
@[simp] theorem State.startCycle_busyLine (m : UpdateMode) : (s.startCycle m).busyLine = s.busyLine := rfl
@[simp] theorem State.startCycle_tempAnswers (m : UpdateMode) : (s.startCycle m).tempAnswers = s.tempAnswers := rfl
@[simp] theorem State.startCycle_draws (m : UpdateMode) : (s.startCycle m).draws = s.draws := rfl
@[simp] theorem State.startCycle_params (m : UpdateMode) : (s.startCycle m).params = s.params := rfl

/-! ### `advance` -/

@[simp] theorem State.advance_profile : (s.advance).profile = s.profile := rfl
@[simp] theorem State.advance_init : (s.advance).init = s.init := rfl
@[simp] theorem State.advance_orient : (s.advance).orient = s.orient := rfl
@[simp] theorem State.advance_invert : (s.advance).invert = s.invert := rfl
@[simp] theorem State.advance_mode : (s.advance).mode = s.mode := rfl
@[simp] theorem State.advance_seq : (s.advance).seq = s.nextSeq := rfl
@[simp] theorem State.advance_regen : (s.advance).regen = s.regen := rfl
@[simp] theorem State.advance_fb : (s.advance).fb = s.fb := rfl
@[simp] theorem State.advance_trace : (s.advance).trace = s.trace := rfl
@[simp] theorem State.advance_responses : (s.advance).responses = s.responses := rfl
@[simp] theorem State.advance_inProgress : (s.advance).inProgress = s.inProgress := rfl
@[simp] theorem State.advance_hostPort : (s.advance).hostPort = s.hostPort := rfl
@[simp] theorem State.advance_hostQueue : (s.advance).hostQueue = s.hostQueue := rfl
@[simp] theorem State.advance_busyLine : (s.advance).busyLine = s.busyLine := rfl
@[simp] theorem State.advance_tempAnswers : (s.advance).tempAnswers = s.tempAnswers := rfl
@[simp] theorem State.advance_draws : (s.advance).draws = s.draws := rfl
@[simp] theorem State.advance_params : (s.advance).params = s.params := rfl

/-! ### `sampleLine` -/

@[simp] theorem State.sampleLine_profile : (s.sampleLine).profile = s.profile := by
  unfold State.sampleLine; split <;> rfl
@[simp] theorem State.sampleLine_init : (s.sampleLine).init = s.init := by
  unfold State.sampleLine; split <;> rfl
@[simp] theorem State.sampleLine_orient : (s.sampleLine).orient = s.orient := by
  unfold State.sampleLine; split <;> rfl
@[simp] theorem State.sampleLine_invert : (s.sampleLine).invert = s.invert := by
  unfold State.sampleLine; split <;> rfl
@[simp] theorem State.sampleLine_mode : (s.sampleLine).mode = s.mode := by
  unfold State.sampleLine; split <;> rfl
@[simp] theorem State.sampleLine_seq : (s.sampleLine).seq = s.seq := by
  unfold State.sampleLine; split <;> rfl
@[simp] theorem State.sampleLine_regen : (s.sampleLine).regen = s.regen := by
  unfold State.sampleLine; split <;> rfl
@[simp] theorem State.sampleLine_fb : (s.sampleLine).fb = s.fb := by
  unfold State.sampleLine; split <;> rfl
@[simp] theorem State.sampleLine_trace : (s.sampleLine).trace = s.trace := by
  unfold State.sampleLine; split <;> rfl
@[simp] theorem State.sampleLine_responses : (s.sampleLine).responses = s.responses := by
  unfold State.sampleLine; split <;> rfl
@[simp] theorem State.sampleLine_inProgress : (s.sampleLine).inProgress = s.inProgress := by
  unfold State.sampleLine; split <;> rfl
@[simp] theorem State.sampleLine_hostPort : (s.sampleLine).hostPort = s.hostPort := by
  unfold State.sampleLine; split <;> rfl
@[simp] theorem State.sampleLine_hostQueue : (s.sampleLine).hostQueue = s.hostQueue := by
  unfold State.sampleLine; split <;> rfl
@[simp] theorem State.sampleLine_tempAnswers : (s.sampleLine).tempAnswers = s.tempAnswers := by
  unfold State.sampleLine; split <;> rfl
@[simp] theorem State.sampleLine_params : (s.sampleLine).params = s.params := by
  unfold State.sampleLine; split <;> rfl

/-! ### `takeAnswer` -/

@[simp] theorem State.takeAnswer_profile : (s.takeAnswer).profile = s.profile := by
  unfold State.takeAnswer; split <;> rfl
@[simp] theorem State.takeAnswer_init : (s.takeAnswer).init = s.init := by
  unfold State.takeAnswer; split <;> rfl
@[simp] theorem State.takeAnswer_orient : (s.takeAnswer).orient = s.orient := by
  unfold State.takeAnswer; split <;> rfl
@[simp] theorem State.takeAnswer_invert : (s.takeAnswer).invert = s.invert := by
  unfold State.takeAnswer; split <;> rfl
@[simp] theorem State.takeAnswer_mode : (s.takeAnswer).mode = s.mode := by
  unfold State.takeAnswer; split <;> rfl
@[simp] theorem State.takeAnswer_seq : (s.takeAnswer).seq = s.seq := by
  unfold State.takeAnswer; split <;> rfl
@[simp] theorem State.takeAnswer_regen : (s.takeAnswer).regen = s.regen := by
  unfold State.takeAnswer; split <;> rfl
@[simp] theorem State.takeAnswer_fb : (s.takeAnswer).fb = s.fb := by
  unfold State.takeAnswer; split <;> rfl
@[simp] theorem State.takeAnswer_trace : (s.takeAnswer).trace = s.trace := by
  unfold State.takeAnswer; split <;> rfl
@[simp] theorem State.takeAnswer_responses : (s.takeAnswer).responses = s.responses := by
  unfold State.takeAnswer; split <;> rfl
@[simp] theorem State.takeAnswer_inProgress : (s.takeAnswer).inProgress = s.inProgress := by
  unfold State.takeAnswer; split <;> rfl
@[simp] theorem State.takeAnswer_hostPort : (s.takeAnswer).hostPort = s.hostPort := by
  unfold State.takeAnswer; split <;> rfl
@[simp] theorem State.takeAnswer_hostQueue : (s.takeAnswer).hostQueue = s.hostQueue := by
  unfold State.takeAnswer; split <;> rfl
@[simp] theorem State.takeAnswer_busyLine : (s.takeAnswer).busyLine = s.busyLine := by
  unfold State.takeAnswer; split <;> rfl
@[simp] theorem State.takeAnswer_params : (s.takeAnswer).params = s.params := by
  unfold State.takeAnswer; split <;> rfl

/-! ### Shorthands are the events they append -/

@[simp] theorem State.sendIndexData_eq (i : Byte) (bytes : List Byte) :
    s.sendIndexData i bytes = s.emit (.idx i bytes) := rfl
@[simp] theorem State.sendCommand8_eq (c : Byte) : s.sendCommand8 c = s.emit (.cmd c) := rfl
@[simp] theorem State.report_eq : s.report = s.emit .report := rfl
@[simp] theorem State.delay_eq : s.delay = s.emit .delay := rfl
@[simp] theorem State.nextBase_eq : s.nextBase = 0 := rfl
@[simp] theorem State.prevBase_eq : s.prevBase = s.profile.planeSize := rfl

end Sys2Proof.Machine
end

