-- ==== Sys2Proof/Laws/Ops.lean ====
section
/-! SUPPORT. One lemma for each shared operation of Machine/Ops.lean, saying everything it can do. -/

namespace Sys2Proof.Machine

/-! ## Memory access -/

@[simp] theorem State.length_fbBytes (s : State) (a n : Nat) : (s.fbBytes a n).length = n := by
  simp [State.fbBytes]

theorem State.getD_fbBytes (s : State) (a n k : Nat) (d : Byte) (h : k < n) :
    (s.fbBytes a n).getD k d = s.fbByte (a + k) := by
  simp [State.fbBytes, List.getD_eq_getElem?_getD, h]

/-- `memRead` answers inside `FB` exactly, with the bytes in ascending order. -/
theorem State.memRead_eq_some_iff {s : State} {a n : Nat} {bytes : List Byte} :
    s.memRead a n = some bytes ↔ a + n ≤ s.fbSize ∧ bytes = s.fbBytes a n := by
  unfold State.memRead
  split <;> simp_all [eq_comm]

theorem State.memRead_of_le {s : State} {a n : Nat} (h : a + n ≤ s.fbSize) :
    s.memRead a n = some (s.fbBytes a n) := if_pos h

/-- One byte is a read of length one (R13). -/
theorem State.memRead_one (s : State) (a : Nat) : s.memRead a 1 = (s.memReadByte a).map fun b => [b] := by
  unfold State.memRead State.memReadByte
  split <;> simp [State.fbBytes]

theorem State.memReadByte_of_lt {s : State} {a : Nat} (h : a < s.fbSize) :
    s.memReadByte a = some (s.fbByte a) := if_pos h

/-- `memWrite` answers inside `FB` exactly, and changes `FB` only. -/
theorem State.memWrite_eq_some_iff {s t : State} {a : Nat} {bytes : List Byte} :
    s.memWrite a bytes = some t ↔ a + bytes.length ≤ s.fbSize ∧ t = s.setFb (s.fb.write a bytes) := by
  unfold State.memWrite
  split <;> simp_all [eq_comm]

theorem State.memWrite_of_le {s : State} {a : Nat} {bytes : List Byte}
    (h : a + bytes.length ≤ s.fbSize) : s.memWrite a bytes = some (s.setFb (s.fb.write a bytes)) :=
  if_pos h

/-- The byte at an address after a write. -/
theorem State.fbByte_setFb_write (s : State) (a : Nat) (bytes : List Byte) (x : Nat) :
    (s.setFb (s.fb.write a bytes)).fbByte x =
      if a ≤ x ∧ x < a + bytes.length then bytes.getD (x - a) unlistedByte else s.fbByte x :=
  Memory.byteAt_write s.fb a bytes x

/-! ## Gates -/

/-- With the port open the gate passes; with it closed it refuses (R42). -/
theorem State.whenOpen_of_open {s : State} (h : s.PortOpen) (body : Result) : s.whenOpen body = body :=
  if_pos h

theorem State.whenOpen_of_closed {s : State} (h : ¬ s.PortOpen) (body : Result) :
    s.whenOpen body = .refused .reentrant := if_neg h

/-- Everything the gate of a host operation can answer (R279). -/
theorem State.whenBegun_cases (s : State) (body : Result) :
    (s.PortOpen ∧ s.init = true ∧ s.whenBegun body = body) ∨
      (s.PortOpen ∧ s.init = false ∧ s.whenBegun body = .refused .notBegun) ∨
      (¬ s.PortOpen ∧ s.whenBegun body = .refused .reentrant) := by
  unfold State.whenBegun State.whenOpen
  by_cases hp : s.PortOpen
  · rw [if_pos hp]
    cases hi : s.init
    · exact .inr (.inl ⟨hp, rfl, rfl⟩)
    · exact .inl ⟨hp, rfl, rfl⟩
  · exact .inr (.inr ⟨hp, if_neg hp⟩)

theorem State.whenBegun_of_begun {s : State} (hp : s.PortOpen) (hi : s.init = true) (body : Result) :
    s.whenBegun body = body := by
  rw [State.whenBegun, State.whenOpen_of_open hp, if_pos hi]

/-- A gated operation that answers a next state passed both checks. -/
theorem State.of_whenBegun_next {s t : State} {body : Result} (h : s.whenBegun body = .next t) :
    s.PortOpen ∧ s.init = true ∧ body = .next t := by
  rcases s.whenBegun_cases body with ⟨hp, hi, e⟩ | ⟨_, _, e⟩ | ⟨_, e⟩
  · exact ⟨hp, hi, e ▸ h⟩
  · rw [e] at h; cases h
  · rw [e] at h; cases h

/-! ## The cycle's shared actions -/

/-- A send step at its place transmits and advances; away from it, it is refused. -/
theorem State.sendFrom_at {s : State} {site : Seq} (h : s.seq = site) (e : Event) :
    s.sendFrom site e = .next (s.emit e).advance := if_pos h

theorem State.sendFrom_away {s : State} {site : Seq} (h : s.seq ≠ site) (e : Event) :
    s.sendFrom site e = .refused .outOfSequence := if_neg h

theorem State.of_sendFrom_next {s t : State} {site : Seq} {e : Event} (h : s.sendFrom site e = .next t) :
    s.seq = site ∧ t = (s.emit e).advance := by
  unfold State.sendFrom at h
  split at h
  · exact ⟨‹_›, by simpa [eq_comm] using h⟩
  · cases h

theorem State.transferFrom_at {s : State} {site : Seq} (h : s.seq = site) (index : Byte) {base : Nat}
    (hb : base + s.profile.frameSize ≤ s.fbSize) :
    s.transferFrom site index base =
      .next (s.emit (.idx index (s.fbBytes base s.profile.frameSize))).advance := by
  unfold State.transferFrom
  rw [if_pos h, State.memRead_of_le hb]
  rfl

theorem State.of_transferFrom_next {s t : State} {site : Seq} {index : Byte} {base : Nat}
    (h : s.transferFrom site index base = .next t) :
    s.seq = site ∧ base + s.profile.frameSize ≤ s.fbSize ∧
      t = (s.emit (.idx index (s.fbBytes base s.profile.frameSize))).advance := by
  unfold State.transferFrom at h
  split at h
  · split at h
    · rename_i hs _ bytes hread
      obtain ⟨hb, rfl⟩ := State.memRead_eq_some_iff.mp hread
      exact ⟨hs, hb, by simpa [eq_comm] using h⟩
    · cases h
  · cases h

/-! ## Filling the "next" plane -/

/-- A solid clear always answers, and writes one plane of the fill byte from `NEXT_BASE` on (R180). -/
theorem State.clearSolid_eq (s : State) (c : BinColour) :
    s.clearSolid c = some (s.setFb (s.fb.write 0 (s.solidPlane c))) := by
  unfold State.clearSolid
  rw [State.nextBase_eq, State.memWrite_of_le]
  simp only [State.solidPlane, List.length_replicate, State.fbSize]
  omega

theorem State.fbByte_clearSolid (s : State) (c : BinColour) (x : Nat) :
    (s.setFb (s.fb.write 0 (s.solidPlane c))).fbByte x =
      if x < s.profile.planeSize then s.fillByte c else s.fbByte x := by
  rw [State.fbByte_setFb_write]
  simp only [State.solidPlane, List.length_replicate, Nat.zero_le, true_and, Nat.zero_add, Nat.sub_zero]
  split
  · rename_i h; simp [List.getD_eq_getElem?_getD, h]
  · rfl

theorem length_flatMap_rows (rows width : Nat) (f : Nat → Byte) :
    ((List.range rows).flatMap fun r => List.replicate width (f r)).length = rows * width := by
  simp [List.length_flatMap]

@[simp] theorem length_greyPlane (p : Profile) : (greyPlane p).length = p.sizeV * p.bufferRowBytes :=
  length_flatMap_rows _ _ _

theorem getElem?_flatMap_rows (rows width : Nat) (f : Nat → Byte) (x : Nat) (h : x < rows * width) :
    ((List.range rows).flatMap fun r => List.replicate width (f r))[x]? = some (f (x / width)) := by
  have hw : 0 < width := by
    rcases Nat.eq_zero_or_pos width with rfl | hw
    · simp at h
    · exact hw
  induction rows with
  | zero => simp at h
  | succ rows ih =>
    rw [List.range_succ, List.flatMap_append]
    rcases Nat.lt_or_ge x (rows * width) with hx | hx
    · rw [List.getElem?_append_left (by simpa [List.length_flatMap] using hx), ih hx]
    · have hlt : x - rows * width < width := by
        rw [Nat.succ_mul] at h
        omega
      have hdiv : x / width = rows := by
        refine Nat.div_eq_of_lt_le hx ?_
        simpa using h
      rw [List.getElem?_append_right (by simpa [List.length_flatMap] using hx)]
      simp [List.length_flatMap, hlt, hdiv]

/-- The byte of a grey plane: the pattern of its buffer row (R181). -/
theorem getD_greyPlane (p : Profile) (x : Nat) (d : Byte) (h : x < p.sizeV * p.bufferRowBytes) :
    (greyPlane p).getD x d = if x / p.bufferRowBytes % 2 = 0 then 0x55#8 else 0xAA#8 := by
  rw [List.getD_eq_getElem?_getD, greyPlane, getElem?_flatMap_rows _ _ _ _ h]
  rfl

/-- A grey clear answers when the plane fits `FB`, as every well-formed profile's does (R181). -/
theorem State.clearGrey_eq {s : State} (h : s.profile.sizeV * s.profile.bufferRowBytes ≤ s.fbSize) :
    s.clearGrey = some (s.setFb (s.fb.write 0 (greyPlane s.profile))) := by
  unfold State.clearGrey
  rw [State.nextBase_eq, State.memWrite_of_le]
  simpa using h

/-! ## One bit of a byte -/

/-- The bit written reads back; the other seven keep their values (R182). -/
theorem getLsbD_withBit (old : Byte) {bit : Nat} (hb : bit < 8) (r : Bool) (k : Nat) (hk : k < 8) :
    (withBit old bit r).getLsbD k = if k = bit then r else old.getLsbD k := by
  unfold withBit
  cases r
  · simp only [Bool.false_eq_true, if_false, BitVec.getLsbD_and, BitVec.getLsbD_not, BitVec.getLsbD_shiftLeft,
      BitVec.getLsbD_one]
    by_cases h : k = bit
    · subst h; simp [hk]
    · by_cases hlt : k < bit
      · simp [h, hlt, hk]
      · have : k - bit ≠ 0 := by omega
        simp [h, hk, this]
  · simp only [if_true, BitVec.getLsbD_or, BitVec.getLsbD_shiftLeft, BitVec.getLsbD_one]
    by_cases h : k = bit
    · subst h; simp [hk]
    · by_cases hlt : k < bit
      · simp [h, hlt, hk]
      · have : k - bit ≠ 0 := by omega
        simp [h, hk, this]

end Sys2Proof.Machine
end

