-- ==== Sys2Proof/Laws/Addressing.lean ====
section
/-! SUPPORT. What the address translation answers, and that it stays inside a plane (41_pixel_addressing.md). -/

namespace Sys2Proof.Machine

/-- The place of a pixel inside the rectangle (R152 to R156). -/
def placeOf (p : Profile) (x y : Int) (o : Orientation) : PixelPlace where
  bx := bufferRow p x.toNat y.toNat o
  col := bufferColumn p x.toNat y.toNat o
  off := byteOffset p (bufferRow p x.toNat y.toNat o) (bufferColumn p x.toNat y.toNat o)
  bit := bitIndex (bufferColumn p x.toNat y.toNat o)

theorem toBuffer_of_inRect {p : Profile} {x y : Int} {o : Orientation} (h : InRect p x y o) :
    toBuffer p x y o = some (placeOf p x y o) := if_pos h

theorem toBuffer_of_not_inRect {p : Profile} {x y : Int} {o : Orientation} (h : ¬ InRect p x y o) :
    toBuffer p x y o = none := if_neg h

/-- Everything the translation can answer. -/
theorem toBuffer_eq_some_iff {p : Profile} {x y : Int} {o : Orientation} {place : PixelPlace} :
    toBuffer p x y o = some place ↔ InRect p x y o ∧ place = placeOf p x y o := by
  constructor
  · intro h
    by_cases hr : InRect p x y o
    · exact ⟨hr, Option.some.inj (h.symm.trans (toBuffer_of_inRect hr))⟩
    · rw [toBuffer_of_not_inRect hr] at h; cases h
  · rintro ⟨hr, rfl⟩
    exact toBuffer_of_inRect hr

theorem bufferRow_lt {p : Profile} {x y : Int} {o : Orientation} (h : InRect p x y o) :
    bufferRow p x.toNat y.toNat o < p.sizeV := by
  cases o <;> simp only [InRect, rectWidth, rectHeight, bufferRow] at * <;> omega

theorem bufferColumn_lt {p : Profile} {x y : Int} {o : Orientation} (h : InRect p x y o) :
    bufferColumn p x.toNat y.toNat o < p.sizeH := by
  cases o <;> simp only [InRect, rectWidth, rectHeight, bufferColumn] at * <;> omega

theorem bitIndex_lt (col : Nat) : bitIndex col < 8 := by unfold bitIndex; omega

/-- A buffer pixel's byte lies inside its row, so inside the plane (R157). -/
theorem byteOffset_lt {p : Profile} (hp : p.WellFormed) {bx col : Nat} (hx : bx < p.sizeV)
    (hc : col < p.sizeH) : byteOffset p bx col < p.planeSize := by
  have hm := hp.sizeH_mod
  have hr := hp.rowBytes
  have hcol : col / 8 < p.bufferRowBytes := by omega
  calc byteOffset p bx col < bx * p.bufferRowBytes + p.bufferRowBytes := by
        unfold byteOffset; omega
    _ = (bx + 1) * p.bufferRowBytes := by ring
    _ ≤ p.sizeV * p.bufferRowBytes := Nat.mul_le_mul_right _ hx
    _ = p.planeSize := hp.plane.symm

/-- The place the translation answers lies inside a plane (R157). -/
theorem off_lt_of_toBuffer {p : Profile} (hp : p.WellFormed) {x y : Int} {o : Orientation}
    {place : PixelPlace} (h : toBuffer p x y o = some place) : place.off < p.planeSize := by
  obtain ⟨hr, rfl⟩ := toBuffer_eq_some_iff.mp h
  exact byteOffset_lt hp (bufferRow_lt hr) (bufferColumn_lt hr)

theorem bit_lt_of_toBuffer {p : Profile} {x y : Int} {o : Orientation} {place : PixelPlace}
    (h : toBuffer p x y o = some place) : place.bit < 8 := by
  obtain ⟨-, rfl⟩ := toBuffer_eq_some_iff.mp h
  exact bitIndex_lt _

/-- A transfer never reads past the plane (20_memory.md R79). -/
theorem frameSize_le_planeSize {p : Profile} (hp : p.WellFormed) : p.frameSize ≤ p.planeSize := by
  rcases hp.frame with h | ⟨h, -⟩ <;> omega

theorem degenerate_wellFormed : Profile.degenerate.WellFormed where
  sizeV_lt := by decide
  sizeH_lt := by decide
  sizeH_mod := by decide
  rowBytes := by decide
  plane := by decide
  frame := by decide

end Sys2Proof.Machine
end

