-- ==== Sys2Proof/Laws/Acceptance.lean ====
section
/-! SUPPORT. The document's acceptance properties follow from the statements of Obligations.lean: nothing of them is
left unsaid there (00_scope.md R23). -/

namespace Sys2Proof.Machine

/-- Whatever a list begins with, the rest follows. -/
theorem eq_append_drop_of_take {α : Type} {l head : List α} {n : Nat} (h : l.take n = head) :
    l = head ++ l.drop n := by rw [← h, List.take_append_drop]

/-- A plane's payload whose bytes are all the same. -/
theorem nextPayload_eq_replicate {s : State} {b : Byte} (hp : s.profile.WellFormed)
    (h : ∀ a, a < s.profile.planeSize → s.fbByte a = b) :
    s.nextPayload = List.replicate s.profile.frameSize b := by
  have hf := frameSize_le_planeSize hp
  refine List.eq_replicate_iff.mpr ⟨by simp [State.nextPayload], fun c hc => ?_⟩
  obtain ⟨k, hk, rfl⟩ := List.mem_map.mp hc
  rw [Nat.zero_add]
  exact h k (by have := List.mem_range.mp hk; omega)

/-- FLUSH runs one cycle: the start and the run of OneCycleRunsToPowerOff put together. -/
theorem flush_runs (hflush : Obligations.FlushStartsAFastCycle) (hcycle : Obligations.OneCycleRunsToPowerOff)
    {s : State} (ha : s.Accepting) (hport : s.hostPort = none) (hp : s.profile.WellFormed) {rest : List Bool}
    (hline : s.busyLine = List.replicate { s with mode := .fast }.cycleWaits true ++ rest) :
    ∃ t u, exec .flush s = .next t ∧ runSteps t.cycleSteps t = .next u ∧ u.seq = .idle ∧
      (∀ a, a < s.profile.planeSize →
        u.fbByte a = s.fbByte a ∧ u.fbByte (s.profile.planeSize + a) = s.fbByte a) ∧
      u.trace = s.trace ++ { s with mode := .fast }.cycleEvents := by
  obtain ⟨u, hrun, hfb, hu⟩ := hcycle
    { s with mode := .fast, seq := .cfgResetSend, inProgress := some .flush } rest rfl ha.1.2 hport hp hline
  exact ⟨_, u, hflush s ha, hrun, by rw [hu], hfb, by rw [hu]; rfl⟩

/-- FLUSHMODE answered Global runs one cycle in that mode. -/
theorem flushMode_global_runs (hmode : Obligations.FlushModeAppliesTheAnswer)
    (hcycle : Obligations.OneCycleRunsToPowerOff) {s : State} (ha : s.Accepting) (hport : s.hostPort = none)
    (hp : s.profile.WellFormed) (m : UpdateMode) {answers : List UpdateMode} {rest : List Bool}
    (hans : s.tempAnswers = .globalMode :: answers)
    (hline : s.busyLine = List.replicate { s with mode := .globalMode }.cycleWaits true ++ rest) :
    ∃ t u, exec (.flushMode m) s = .next t ∧ runSteps t.cycleSteps t = .next u ∧
      u.trace = s.trace ++ [.tempChk m .globalMode] ++ { s with mode := .globalMode }.cycleEvents := by
  obtain ⟨answer, t, ht, hhead, -, hgo⟩ := hmode s m ha
  obtain ⟨rfl, -, -⟩ := hhead _ _ hans
  have ht' := hgo (by decide)
  obtain ⟨u, hrun, -, hu⟩ := hcycle t rest (by rw [ht']) (by rw [ht']; exact ha.1.2) (by rw [ht']; exact hport)
    (by rw [ht']; exact hp) (by rw [ht']; exact hline)
  exact ⟨t, u, ht, hrun, by rw [hu, ht']; rfl⟩

/-- The seven acceptance properties hold of every begun block with the port open, once the statements they rest on
do. -/
theorem acceptance_of_statements (hround : Obligations.PixelRoundTrip)
    (hout : Obligations.OutOfRangePixelsAreInert) (hclear : Obligations.ClearBlackThenEveryPixelReadsBlack)
    (hflush : Obligations.FlushStartsAFastCycle) (hmode : Obligations.FlushModeAppliesTheAnswer)
    (hcycle : Obligations.OneCycleRunsToPowerOff) (hregen : Obligations.RegenerateRunsTwoCycles)
    (hscenario : Obligations.CommandScenariosOfTheDocument)
    {s : State} (ha : s.Accepting) (hport : s.hostPort = none) (hp : s.profile.WellFormed) : Acceptance s where
  roundTrip x y c colour place hc hplace := by
    obtain ⟨t, ht, hget⟩ := hround s x y c colour place ha hp hc hplace
    refine ⟨t, ht, hget.trans ?_⟩
    cases colour <;> rfl
  rejection x y hr := hout s x y ha hr
  clearedBlack x y hr := by
    obtain ⟨t, u, ht, hu, hget⟩ := hclear s x y ha hp
    exact ⟨t, u, ht, hu, hget.trans (by rw [if_pos hr]; rfl)⟩
  commit rest hline := by
    obtain ⟨t, u, ht, hrun, hseq, hfb, -⟩ := flush_runs hflush hcycle ha hport hp hline
    exact ⟨t, u, ht, hrun, hseq, hfb⟩
  regenerate rest hline := by
    obtain ⟨b, w, t, hb, hw, ht, hbytes, -, -, hbp, hwp, heq⟩ := hregen s rest ha hport hp hline
    refine ⟨b, w, t, hb, hw, ht, by rw [heq]; exact ha.1.1, by rw [heq], ?_, ?_⟩
    · rw [← hbp]
      refine nextPayload_eq_replicate (hbp ▸ hp) fun a h => ?_
      rw [(hbytes a (hbp ▸ h)).1]
      cases hi : s.invert <;> simp [State.fillByte, rawBit, hi]
    · rw [← hwp]
      refine nextPayload_eq_replicate (hwp ▸ hp) fun a h => ?_
      rw [(hbytes a (hwp ▸ h)).2.2.1]
      cases hi : s.invert <;> simp [State.fillByte, rawBit, hi]
  fastConfigure hf halt rest hline := by
    obtain ⟨t, u, ht, hrun, -, -, htrace⟩ := flush_runs hflush hcycle ha hport hp hline
    have hev := eq_append_drop_of_take ((hscenario { s with mode := .fast }).1 hf halt rfl)
    exact ⟨t, u, _, ht, hrun, htrace.trans (by rw [List.append_assoc]; exact congrArg (s.trace ++ ·) hev)⟩
  globalConfigure m answers rest hans hline := by
    obtain ⟨t, u, ht, hrun, htrace⟩ := flushMode_global_runs hmode hcycle ha hport hp m hans hline
    obtain ⟨hno, htake⟩ := (hscenario { s with mode := .globalMode }).2 rfl
    refine ⟨t, u, ({ s with mode := .globalMode } : State).cycleEvents.drop 8, ht, hrun, htrace.trans ?_,
      fun payload hin => hno payload (List.mem_of_mem_drop hin)⟩
    rw [List.append_assoc, List.append_assoc]
    exact congrArg (fun l => s.trace ++ (.tempChk m .globalMode :: l)) (eq_append_drop_of_take htake)

end Sys2Proof.Machine
end

