-- ==== Sys2Proof/Laws/Config.lean ====
section
/-! SUPPORT. The parameters a block leaves the factory with are well formed, and so is every profile resolved
from well-formed parameters (40_profile_resolver.md R131 to R133). -/

namespace Sys2Proof

theorem Config.cmdPowerOff_ne : Config.cmdPowerOff ≠ 0x04#8 ∧ Config.cmdPowerOff ≠ 0x12#8 := by
  unfold Config.cmdPowerOff
  split
  · decide
  · rename_i h; exact not_or.mp h

theorem Config.params_wf : Config.params.wf = true := by
  have h := Config.cmdPowerOff_ne
  simp [Params.wf, Params.tableWf, Params.powerOffWf, Config.params, h.1, h.2]

namespace Machine

/-- What a row's check says (R133). -/
theorem ProfileRow.wf_iff (r : ProfileRow) :
    r.wf = true ↔ 0 < r.sizeV ∧ r.sizeV < 2 ^ dimBits ∧ 0 < r.sizeH ∧ r.sizeH < 2 ^ dimBits ∧
      r.sizeH % 8 = 0 ∧ (r.dualHalf = true → r.sizeV * (r.sizeH / 8) % 2 = 0) := by
  unfold ProfileRow.wf
  cases hd : r.dualHalf <;> simp [and_assoc]

theorem rowProfile_wellFormed {r : ProfileRow} (h : r.wf = true) : (rowProfile r).WellFormed := by
  obtain ⟨_, h2, _, h4, h5, h6⟩ := (ProfileRow.wf_iff r).mp h
  refine ⟨h2, h4, h5, rfl, rfl, ?_⟩
  cases hd : r.dualHalf
  · left; simp [rowProfile, hd]
  · right; simp [rowProfile, hd, h6 hd]

/-- Every row the resolver finds in a well-formed table is well formed. -/
theorem wf_of_tableRow {params : Params} (h : params.tableWf = true) {code : ScreenCode} {r : ProfileRow}
    (hr : tableRow params code = some r) : r.wf = true := by
  unfold tableRow at hr
  obtain ⟨entry, he, rfl⟩ := Option.map_eq_some_iff.mp hr
  exact List.all_eq_true.mp h _ (List.mem_of_find?_eq_some he)

theorem resolve_wellFormed {params : Params} (h : params.tableWf = true) (code : ScreenCode) :
    (resolve params code).WellFormed := by
  unfold resolve
  split
  · exact rowProfile_wellFormed (wf_of_tableRow h ‹_›)
  · exact degenerate_wellFormed

end Machine

end Sys2Proof
end

