-- ==== Sys2Proof/Laws/Encoding.lean ====
section
/-! SUPPORT. What the mask of a row keeps of a word in one of the formats of 30_encoding.md R101, and what the
field readers give on it. -/

namespace Sys2Proof

theorem fields_and (o o' : BitVec 4) (a a' : BitVec 2) (x x' y y' : BitVec 13) :
    (o ++ a ++ x ++ y) &&& (o' ++ a' ++ x' ++ y') = (o &&& o') ++ (a &&& a') ++ (x &&& x') ++ (y &&& y') := by
  rw [BitVec.and_append, BitVec.and_append, BitVec.and_append]

theorem code_fields_and (o o' z z' : BitVec 4) (c c' : BitVec 24) :
    (o ++ z ++ c) &&& (o' ++ z' ++ c') = (o &&& o') ++ (z &&& z') ++ (c &&& c') := by
  rw [BitVec.and_append, BitVec.and_append]

theorem formatP_and (op opMask : BitVec 4) (a aMask : BitVec 2) (x y : Int) :
    formatP op a x y &&& (opMask ++ aMask ++ 0#13 ++ 0#13) = (op &&& opMask) ++ (a &&& aMask) ++ 0#13 ++ 0#13 := by
  have h := fields_and op opMask a aMask (BitVec.ofInt 13 x) 0#13 (BitVec.ofInt 13 y) 0#13
  rw [BitVec.and_zero, BitVec.and_zero] at h
  exact h

theorem formatA_and (op opMask : BitVec 4) (a aMask : BitVec 2) (xMask yMask : BitVec 13) :
    formatA op a &&& (opMask ++ aMask ++ xMask ++ yMask) = (op &&& opMask) ++ (a &&& aMask) ++ 0#13 ++ 0#13 := by
  have h := fields_and op opMask a aMask 0#13 xMask 0#13 yMask
  rw [BitVec.zero_and, BitVec.zero_and] at h
  exact h

theorem formatB_and (op opMask : BitVec 4) (code : ScreenCode) :
    formatB op code &&& (opMask ++ 0xF#4 ++ 0#24) = (op &&& opMask) ++ 0#4 ++ 0#24 := by
  have h := code_fields_and op opMask 0#4 0xF#4 code 0#24
  rw [BitVec.zero_and, BitVec.and_zero] at h
  exact h

theorem fieldA_formatA (op : BitVec 4) (a : BitVec 2) : fieldA (formatA op a) = a := by
  unfold fieldA formatA
  rw [BitVec.extractLsb'_append_eq_ite, dif_neg (by decide), BitVec.extractLsb'_append_eq_ite, dif_neg (by decide),
    BitVec.extractLsb'_append_eq_of_add_le (by decide)]
  exact BitVec.extractLsb'_eq_self

theorem fieldA_formatP (op : BitVec 4) (a : BitVec 2) (x y : Int) : fieldA (formatP op a x y) = a := by
  unfold fieldA formatP
  rw [BitVec.extractLsb'_append_eq_ite, dif_neg (by decide), BitVec.extractLsb'_append_eq_ite, dif_neg (by decide),
    BitVec.extractLsb'_append_eq_of_add_le (by decide)]
  exact BitVec.extractLsb'_eq_self

theorem toNat_ofInt_coord {v : Int} (h : CoordEncodable v) : ((BitVec.ofInt coordBits v).toNat : Int) = v := by
  have h1 := h.1
  have h2 := h.2
  simp only [BitVec.toNat_ofInt, coordBits] at *
  omega

theorem fieldX_formatP (op : BitVec 4) (a : BitVec 2) {x : Int} (y : Int) (h : CoordEncodable x) :
    fieldX (formatP op a x y) = x := by
  unfold fieldX formatP
  rw [BitVec.extractLsb'_append_eq_ite, dif_neg (by decide), BitVec.extractLsb'_append_eq_of_add_le (by decide),
    show (13 - coordBits) = 0 from rfl, BitVec.extractLsb'_eq_self]
  exact toNat_ofInt_coord h

theorem fieldY_formatP (op : BitVec 4) (a : BitVec 2) (x : Int) {y : Int} (h : CoordEncodable y) :
    fieldY (formatP op a x y) = y := by
  unfold fieldY formatP
  rw [BitVec.extractLsb'_append_eq_of_add_le (by decide), BitVec.extractLsb'_eq_self]
  exact toNat_ofInt_coord h

theorem fieldCode_formatB (op : BitVec 4) (code : ScreenCode) : fieldCode (formatB op code) = code := by
  unfold fieldCode formatB
  rw [BitVec.extractLsb'_append_eq_of_add_le (by decide)]
  exact BitVec.extractLsb'_eq_self

theorem ColourArg.ofCode_code (c : ColourArg) : ColourArg.ofCode c.code = c := by cases c <;> rfl

theorem UpdateMode.ofCode_code (m : UpdateMode) : UpdateMode.ofCode m.code = m := by cases m <;> rfl

end Sys2Proof
end

