-- ==== Sys2Proof/Laws/PerInstr.lean ====
section
/-! SUPPORT. Families of lemmas with one lemma per instruction. `SpellsARow`: the encoding of a host operation is
a word that spells a row of the operation map (30_encoding.md R103), and of its own operation code; a panel
command has no host word. -/

namespace Sys2Proof.Laws.SpellsARow

/-- The row of the operation map an instruction belongs to (R103); a panel command has none. -/
def row : Instr → Option Nat
  | .beginOp _ => some 0
  | .clear _ => some 1
  | .setPixel _ _ _ => some 2
  | .getPixel _ _ => some 3
  | .setOrient _ => some 4
  | .setInvert _ => some 5
  | .flush => some 6
  | .flushMode _ => some 7
  | .regenerate => some 8
  | _ => none

/-- Whatever host word encodes the instruction spells the row of its operation, and no other row. -/
def Statement (i : Instr) : Prop :=
  ∀ powerOff frameSize w, encode powerOff frameSize i = .host w →
    ∀ k (h : k < hostRows.length), hostRows[k].spells w = true ↔ row i = some k

/-- The bits 31 to 28 of a word, which tell the rows apart. -/
theorem not_spells_of_code {w : HostWord} {k : Nat} (h : k < hostRows.length)
    (hw : w.extractLsb' 28 4 ≠ hostRows[k].pattern.extractLsb' 28 4) : hostRows[k].spells w = false := by
  have hm : ∀ r ∈ hostRows, r.mask.extractLsb' 28 4 = 0xF#4 := by decide
  cases hs : hostRows[k].spells w
  · rfl
  · exfalso
    apply hw
    have he : w &&& hostRows[k].mask = hostRows[k].pattern := by simpa [HostRow.spells] using hs
    have := hm hostRows[k] (List.getElem_mem h)
    rw [← he, BitVec.extractLsb'_and, this]
    exact (BitVec.and_allOnes).symm

/-- The rows' operation codes differ (R103: the match sets are disjoint). -/
theorem codes_differ : ∀ a b : Fin hostRows.length, hostRows[a].pattern.extractLsb' 28 4 =
    hostRows[b].pattern.extractLsb' 28 4 → a = b := by decide

/-- A word that spells row `n` spells no other row. -/
theorem spells_iff {w : HostWord} {n : Nat} (hn : n < hostRows.length) (h : hostRows[n].spells w = true)
    (k : Nat) (hk : k < hostRows.length) : hostRows[k].spells w = true ↔ some n = some k := by
  constructor
  · intro h'
    by_contra hne
    have code : ∀ {j : Nat} (hj : j < hostRows.length), hostRows[j].spells w = true →
        w.extractLsb' 28 4 = hostRows[j].pattern.extractLsb' 28 4 := by
      intro j hj hs
      by_contra hc
      rw [not_spells_of_code hj hc] at hs
      cases hs
    have := codes_differ ⟨n, hn⟩ ⟨k, hk⟩ ((code hn h).symm.trans (code hk h'))
    exact hne (by simpa using this)
  · rintro ⟨⟩
    exact h

/-- A word that spells a row, and no other, decodes to that row's operation. -/
theorem decodeHostWord_of_spells {w : HostWord} {k : Nat} (hk : k < hostRows.length)
    (h : ∀ j (hj : j < hostRows.length), hostRows[j].spells w = true ↔ some k = some j) :
    decodeHostWord w = some (hostRows[k].operands w) := by
  have hf : hostRows.find? (fun r => r.spells w) = some hostRows[k] := by
    refine List.find?_eq_some_iff_getElem.mpr ⟨(h k hk).mpr rfl, k, hk, rfl, fun j hj => ?_⟩
    cases hs : hostRows[j].spells w
    · rfl
    · have := Option.some.inj ((h j (by omega)).mp hs)
      omega
  rw [decodeHostWord, hf]
  rfl

theorem beginOp (code : ScreenCode) : Statement (.beginOp code) := by
  rintro powerOff frameSize w ⟨⟩
  exact spells_iff (n := 0) (by decide) (by
    have := formatB_and 0x1#4 0xF#4 code
    exact beq_iff_eq.mpr this)

theorem clear (c : ColourArg) : Statement (.clear c) := by
  rintro powerOff frameSize w ⟨⟩
  exact spells_iff (n := 1) (by decide) (by
    have := formatA_and 0x2#4 0xF#4 c.code 0#2 0x1FFF#13 0x1FFF#13
    rw [BitVec.and_zero] at this
    exact beq_iff_eq.mpr this)

theorem setPixel (x y : Int) (c : ColourArg) : Statement (.setPixel x y c) := by
  rintro powerOff frameSize w ⟨⟩
  exact spells_iff (n := 2) (by decide) (by
    have := formatP_and 0x3#4 0xF#4 c.code 0#2 x y
    rw [BitVec.and_zero] at this
    exact beq_iff_eq.mpr this)

theorem getPixel (x y : Int) : Statement (.getPixel x y) := by
  rintro powerOff frameSize w ⟨⟩
  exact spells_iff (n := 3) (by decide) (by
    have := formatP_and 0x4#4 0xF#4 0#2 0x3#2 x y
    exact beq_iff_eq.mpr this)

theorem setOrient (o : Int) : Statement (.setOrient o) := by
  rintro powerOff frameSize w ⟨⟩
  exact spells_iff (n := 4) (by decide) (by
    have := formatA_and 0x5#4 0xF#4 (BitVec.ofInt 2 o) 0#2 0x1FFF#13 0x1FFF#13
    rw [BitVec.and_zero] at this
    exact beq_iff_eq.mpr this)

theorem setInvert (flag : Bool) : Statement (.setInvert flag) := by
  rintro powerOff frameSize w ⟨⟩
  exact spells_iff (n := 5) (by decide) (by cases flag <;> decide)

theorem flush : Statement .flush := by
  rintro powerOff frameSize w ⟨⟩
  exact spells_iff (n := 6) (by decide) (by decide)

theorem flushMode (m : UpdateMode) : Statement (.flushMode m) := by
  rintro powerOff frameSize w ⟨⟩
  exact spells_iff (n := 7) (by decide) (by cases m <;> decide)

theorem regenerate : Statement .regenerate := by
  rintro powerOff frameSize w ⟨⟩
  exact spells_iff (n := 8) (by decide) (by decide)

theorem pSoftReset : Statement .pSoftReset := by rintro powerOff frameSize w ⟨⟩

theorem pTempInput : Statement .pTempInput := by rintro powerOff frameSize w ⟨⟩

theorem pTempActivate : Statement .pTempActivate := by rintro powerOff frameSize w ⟨⟩

theorem pPsr : Statement .pPsr := by rintro powerOff frameSize w ⟨⟩

theorem pVcom : Statement .pVcom := by rintro powerOff frameSize w ⟨⟩

theorem pDataPrev : Statement .pDataPrev := by rintro powerOff frameSize w ⟨⟩

theorem pDataNext : Statement .pDataNext := by rintro powerOff frameSize w ⟨⟩

theorem pPowerOn : Statement .pPowerOn := by rintro powerOff frameSize w ⟨⟩

theorem pRefresh : Statement .pRefresh := by rintro powerOff frameSize w ⟨⟩

theorem pPowerOff : Statement .pPowerOff := by rintro powerOff frameSize w ⟨⟩

end Sys2Proof.Laws.SpellsARow
end

