-- ==== Sys2Proof/Laws/Step.lean ====
section
/-! SUPPORT. What one step can do, said once: the cases of `step`, and of every meaning and cycle step that
answers a next state. Invariants are case analyses over these. -/

namespace Sys2Proof.Machine

/-! ## step -/

theorem step_of_open {s : State} (h : s.PortOpen) : step s = hostStep s := if_pos h

theorem step_of_closed {s : State} (h : ¬ s.PortOpen) : step s = closedStep s := if_neg h

theorem cycleStep_of_command {s : State} {i : Instr} (h : s.seq.command = some i) : cycleStep s = exec i s := by
  unfold cycleStep
  rw [h]

theorem cycleStep_of_commit {s : State} (h : s.seq = .xferCommit) : cycleStep s = commitStep s := by
  unfold cycleStep
  rw [h]
  rfl

theorem cycleStep_of_offWait {s : State} (h : s.seq = .offWait) : cycleStep s = offWaitStep s := by
  unfold cycleStep
  rw [h]
  rfl

theorem cycleStep_of_wait {s : State} (h : s.seq.isWait = true) (h' : s.seq ≠ .offWait) :
    cycleStep s = waitStep s := by
  unfold cycleStep
  cases hs : s.seq <;> simp_all [Seq.isWait, Seq.command]

/-- Every way a step answers a next state. -/
theorem step_next_cases {s t : State} (h : step s = .next t) :
    (s.PortOpen ∧ s.takeHostWord = none ∧ t = s) ∨
      (s.PortOpen ∧ ∃ w u i, s.takeHostWord = some (w, u) ∧ decodeHostWord w = some i ∧
        exec i u = .next t) ∨
      (¬ s.PortOpen ∧ s.hostPort = none ∧ ∃ i, s.seq.command = some i ∧ exec i s = .next t) ∨
      (¬ s.PortOpen ∧ s.hostPort = none ∧ s.seq.isWait = true ∧ s.seq ≠ .offWait ∧
        waitStep s = .next t) ∨
      (¬ s.PortOpen ∧ s.hostPort = none ∧ s.seq = .xferCommit ∧ commitStep s = .next t) ∨
      (¬ s.PortOpen ∧ s.hostPort = none ∧ s.seq = .offWait ∧ offWaitStep s = .next t) := by
  by_cases hp : s.PortOpen
  · rw [step_of_open hp] at h
    unfold hostStep at h
    split at h
    · rename_i w u hw
      unfold runHostWord at h
      split at h
      · rename_i i hi
        exact .inr (.inl ⟨hp, w, u, i, hw, hi, h⟩)
      · cases h
    · rename_i hw
      exact .inl ⟨hp, hw, by simpa [eq_comm] using h⟩
  · rw [step_of_closed hp] at h
    unfold closedStep at h
    split at h
    · cases h
    · rename_i hport
      unfold cycleStep at h
      split at h
      · rename_i i hi
        exact .inr (.inr (.inl ⟨hp, hport, i, hi, h⟩))
      · split at h
        · exact .inr (.inr (.inr (.inr (.inl ⟨hp, hport, ‹_›, h⟩))))
        · split at h
          · exact .inr (.inr (.inr (.inr (.inr ⟨hp, hport, ‹_›, h⟩))))
          · split at h
            · exact .inr (.inr (.inr (.inl ⟨hp, hport, ‹_›, ‹_›, h⟩)))
            · cases h

/-- Taking a host word changes the port or the queue and nothing else. -/
theorem takeHostWord_eq_some {s u : State} {w : HostWord} (h : s.takeHostWord = some (w, u)) :
    u = { s with hostPort := u.hostPort, hostQueue := u.hostQueue } := by
  unfold State.takeHostWord at h
  split at h
  · cases h; rfl
  · split at h <;> cases h; rfl

/-- A decoded host word is a host operation (30_encoding.md R103). -/
theorem isHostOp_of_decodeHostWord {w : HostWord} {i : Instr} (h : decodeHostWord w = some i) :
    i.isHostOp = true := by
  obtain ⟨r, hr, rfl⟩ := Option.map_eq_some_iff.mp h
  have hr := List.mem_of_find?_eq_some hr
  simp only [hostRows, List.mem_cons, List.not_mem_nil, or_false] at hr
  rcases hr with rfl | rfl | rfl | rfl | rfl | rfl | rfl | rfl | rfl <;> rfl

/-- What a send step runs is a panel command (R112). -/
theorem isHostOp_of_command {q : Seq} {i : Instr} (h : q.command = some i) : i.isHostOp = false := by
  cases q <;> cases h <;> rfl

/-- A send step's command is sent at that step, or at the first of its three sites (R112). -/
theorem command_of_sendSite {i : Instr} {q : Seq} (h : sendSite i = some q) : q.command = some i := by
  cases i <;> simp only [sendSite, reduceCtorEq, Option.some.injEq] at h <;> subst h <;> rfl

/-- A sample of the busy line changes the line and the draw counter at most. -/
theorem sampleLine_eq (s : State) :
    s.sampleLine = { s with busyLine := s.sampleLine.busyLine, draws := s.sampleLine.draws } := by
  unfold State.sampleLine
  split <;> rfl

/-- Taking an answer of the collaborator changes the answers and the draw counter at most. -/
theorem takeAnswer_eq (s : State) :
    s.takeAnswer = { s with tempAnswers := s.takeAnswer.tempAnswers, draws := s.takeAnswer.draws } := by
  unfold State.takeAnswer
  split <;> rfl

/-- Inside a cycle and before OFF_WAIT the next step lies ahead (43_cog_update.md R204). -/
theorem code_lt_nextSeq {s : State} (hi : s.seq ≠ .idle) (ho : s.seq ≠ .offWait) :
    s.seq.code < s.nextSeq.code := by
  unfold State.nextSeq
  cases hs : s.seq <;> simp only [hs, ne_eq, not_true_eq_false, Seq.code] at hi ho ⊢ <;>
    first
    | decide
    | (cases s.vc <;> decide)
    | (cases s.profile.altVoltageTable <;> decide)

/-! ## Meanings of the host operations -/

theorem execBegin_next {code : ScreenCode} {s t : State} (h : execBegin code s = .next t) :
    s.PortOpen ∧ s.init = false ∧ t = (s.begun code).respond .done := by
  unfold execBegin State.whenOpen at h
  split at h
  · split at h
    · cases h
    · rename_i hp hi
      exact ⟨hp, by simpa using hi, by simpa [eq_comm] using h⟩
  · cases h

/-- CLEAR's write is one write from `NEXT_BASE` on, inside `FB`. -/
theorem clearWrite_eq_some {s u : State} {c : Colour} (h : s.clearWrite c = some u) :
    ∃ bytes : List Byte, bytes.length ≤ s.fbSize ∧ u = s.setFb (s.fb.write 0 bytes) ∧
      (bytes.length = s.profile.planeSize ∨ bytes.length = s.profile.sizeV * s.profile.bufferRowBytes) := by
  cases c with
  | white =>
    obtain ⟨hb, rfl⟩ := State.memWrite_eq_some_iff.mp h
    exact ⟨s.solidPlane .white, by simpa using hb, rfl, .inl (by simp [State.solidPlane])⟩
  | black =>
    obtain ⟨hb, rfl⟩ := State.memWrite_eq_some_iff.mp h
    exact ⟨s.solidPlane .black, by simpa using hb, rfl, .inl (by simp [State.solidPlane])⟩
  | grey =>
    obtain ⟨hb, rfl⟩ := State.memWrite_eq_some_iff.mp h
    exact ⟨greyPlane s.profile, by simpa using hb, rfl, .inr (by simp)⟩

theorem execClear_next {c : ColourArg} {s t : State} (h : execClear c s = .next t) :
    s.PortOpen ∧ s.init = true ∧ ∃ colour u, colourOperand c = some colour ∧
      s.clearWrite colour = some u ∧ t = u.respond .done := by
  obtain ⟨hp, hi, h⟩ := State.of_whenBegun_next h
  split at h
  · cases h
  · rename_i colour hc
    split at h
    · rename_i u hu
      exact ⟨hp, hi, colour, u, hc, hu, by simpa [eq_comm] using h⟩
    · cases h

/-- A pixel write is one write of one byte inside `FB`. -/
theorem putPixel_eq_some {s u : State} {place : PixelPlace} {c : BinColour} (h : s.putPixel place c = some u) :
    place.off < s.fbSize ∧
      u = s.setFb (s.fb.write place.off
        [withBit (s.fbByte place.off) place.bit (rawBit c s.invert)]) := by
  unfold State.putPixel at h
  split at h
  · rename_i old hold
    obtain ⟨hb, rfl⟩ := State.memWrite_eq_some_iff.mp h
    unfold State.memReadByte at hold
    split at hold
    · cases hold
      simp only [State.nextBase_eq, Nat.zero_add, List.length_cons, List.length_nil] at *
      exact ⟨by omega, trivial⟩
    · cases hold
  · cases h

theorem execSetPixel_next {x y : Int} {c : ColourArg} {s t : State} (h : execSetPixel x y c s = .next t) :
    s.PortOpen ∧ s.init = true ∧ ∃ colour, colourOperand c = some colour ∧
      ((toBuffer s.profile x y s.orient = none ∧ t = s.respond .done) ∨
        ∃ place u, toBuffer s.profile x y s.orient = some place ∧
          s.putPixel place (reduceColour s.params colour x y place) = some u ∧ t = u.respond .done) := by
  obtain ⟨hp, hi, h⟩ := State.of_whenBegun_next h
  split at h
  · cases h
  · rename_i colour hc
    refine ⟨hp, hi, colour, hc, ?_⟩
    split at h
    · exact .inl ⟨‹_›, by simpa [eq_comm] using h⟩
    · rename_i place hplace
      split at h
      · rename_i u hu
        exact .inr ⟨place, u, hplace, hu, by simpa [eq_comm] using h⟩
      · cases h

theorem execGetPixel_next {x y : Int} {s t : State} (h : execGetPixel x y s = .next t) :
    s.PortOpen ∧ s.init = true ∧ ∃ c, t = s.respond (.colour c) := by
  obtain ⟨hp, hi, h⟩ := State.of_whenBegun_next h
  split at h
  · exact ⟨hp, hi, .white, by simpa [eq_comm] using h⟩
  · split at h
    · rename_i c _
      exact ⟨hp, hi, c, by simpa [eq_comm] using h⟩
    · cases h

theorem execSetOrient_next {o : Int} {s t : State} (h : execSetOrient o s = .next t) :
    s.PortOpen ∧ s.init = true ∧ ∃ orient, orientOperand o = some orient ∧
      t = (s.setOrientation orient).respond .done := by
  obtain ⟨hp, hi, h⟩ := State.of_whenBegun_next h
  split at h
  · rename_i orient ho
    exact ⟨hp, hi, orient, ho, by simpa [eq_comm] using h⟩
  · cases h

theorem execSetInvert_next {flag : Bool} {s t : State} (h : execSetInvert flag s = .next t) :
    s.PortOpen ∧ s.init = true ∧ t = (s.setInversion flag).respond .done := by
  obtain ⟨hp, hi, h⟩ := State.of_whenBegun_next h
  exact ⟨hp, hi, by simpa [eq_comm] using h⟩

theorem execFlush_next {s t : State} (h : execFlush s = .next t) :
    s.PortOpen ∧ s.init = true ∧ t = (s.startCycle .fast).setInProgress (some .flush) := by
  obtain ⟨hp, hi, h⟩ := State.of_whenBegun_next h
  exact ⟨hp, hi, by simpa [eq_comm] using h⟩

theorem execFlushMode_next {m : UpdateMode} {s t : State} (h : execFlushMode m s = .next t) :
    s.PortOpen ∧ s.init = true ∧
      t = (s.checkTemperatureMode m).applyMode (s.temperatureAnswer m) := by
  obtain ⟨hp, hi, h⟩ := State.of_whenBegun_next h
  exact ⟨hp, hi, by simpa [eq_comm] using h⟩

theorem execRegenerate_next {s t : State} (h : execRegenerate s = .next t) :
    s.PortOpen ∧ s.init = true ∧
      t = (((s.setFb (s.fb.write 0 (s.solidPlane .black))).setRegen .blackCycle).startCycle
        .fast).setInProgress (some .regenerate) := by
  obtain ⟨hp, hi, h⟩ := State.of_whenBegun_next h
  rw [State.clearSolid_eq] at h
  exact ⟨hp, hi, by simpa [eq_comm] using h⟩

/-! ## Panel commands and cycle steps -/

/-- The transmission of the send step `SEQ` stands at (43_cog_update.md R205 to R219); `WAIT` for the others. -/
def State.sendEvent (s : State) : Event :=
  match s.seq with
  | .cfgResetSend => .idx 0x00#8 [s.params.softResetData]
  | .cfgTempSend => .idx 0xE5#8 [s.temperatureByte]
  | .cfgActSend => .idx 0xE0#8 [s.params.tempActivateData]
  | .cfgPsrSend => .idx 0x00#8 [s.psr0Byte, s.psr1Byte]
  | .cfgVcomaSend => .idx 0x50#8 [s.profile.vcomA]
  | .cfgVcomaltSend => .idx 0x50#8 [s.profile.vcomAlt]
  | .xferPrevSend => .idx 0x10#8 (s.fbBytes s.profile.planeSize s.profile.frameSize)
  | .xferNextSend => .idx 0x13#8 (s.fbBytes 0 s.profile.frameSize)
  | .rfrVcombSend => .idx 0x50#8 [s.profile.vcomB]
  | .rfrPonSend => .cmd 0x04#8
  | .rfrRefreshSend => .cmd 0x12#8
  | .offSend => .cmd s.params.cmdPowerOff
  | _ => .wait

/-- A send step inside `FB` transmits its event and advances. -/
theorem exec_command_eq {s : State} {i : Instr} (h : s.seq.command = some i)
    (hf : s.profile.frameSize ≤ s.profile.planeSize) : exec i s = .next (s.emit s.sendEvent).advance := by
  have hprev : s.profile.planeSize + s.profile.frameSize ≤ s.fbSize := by unfold State.fbSize; omega
  have hnext : 0 + s.profile.frameSize ≤ s.fbSize := by omega
  cases hs : s.seq <;> rw [hs] at h <;> cases h <;> simp only [State.sendEvent, hs]
  all_goals first
    | exact State.sendFrom_at hs _
    | exact State.transferFrom_at hs _ hprev
    | exact State.transferFrom_at hs _ hnext
    | (show execPVcom s = _; unfold execPVcom; simp only [hs, if_true, if_false, reduceCtorEq]
       exact State.sendFrom_at hs _)

/-- A panel command that answers a next state stood at a step that sends it, transmitted and advanced. -/
theorem execPanel_next {i : Instr} (hi : i.isHostOp = false) {s t : State} (h : exec i s = .next t) :
    s.seq.command = some i ∧ t = (s.emit s.sendEvent).advance := by
  have send : ∀ {site e}, s.sendFrom site e = .next t → site.command = some i →
      (s.seq = site → s.sendEvent = e) → s.seq.command = some i ∧ t = (s.emit s.sendEvent).advance := by
    intro site e h hc he
    obtain ⟨hs, rfl⟩ := State.of_sendFrom_next h
    exact ⟨hs ▸ hc, by rw [he hs]⟩
  have transfer : ∀ {site index base}, s.transferFrom site index base = .next t → site.command = some i →
      (s.seq = site → s.sendEvent = .idx index (s.fbBytes base s.profile.frameSize)) →
      s.seq.command = some i ∧ t = (s.emit s.sendEvent).advance := by
    intro site index base h hc he
    obtain ⟨hs, -, rfl⟩ := State.of_transferFrom_next h
    exact ⟨hs ▸ hc, by rw [he hs]⟩
  cases i <;> simp only [Instr.isHostOp, reduceCtorEq] at hi
  case pSoftReset => exact send h rfl fun hs => by simp only [State.sendEvent, hs]
  case pTempInput => exact send h rfl fun hs => by simp only [State.sendEvent, hs]
  case pTempActivate => exact send h rfl fun hs => by simp only [State.sendEvent, hs]
  case pPsr => exact send h rfl fun hs => by simp only [State.sendEvent, hs]
  case pVcom =>
    change execPVcom s = .next t at h
    unfold execPVcom at h
    split at h
    · exact send h rfl fun hs => by simp only [State.sendEvent, hs]
    · split at h
      · exact send h rfl fun hs => by simp only [State.sendEvent, hs]
      · exact send h rfl fun hs => by simp only [State.sendEvent, hs]
  case pDataPrev => exact transfer h rfl fun hs => by simp only [State.sendEvent, hs, State.prevBase_eq]
  case pDataNext => exact transfer h rfl fun hs => by simp only [State.sendEvent, hs, State.nextBase_eq]
  case pPowerOn => exact send h rfl fun hs => by simp only [State.sendEvent, hs]
  case pRefresh => exact send h rfl fun hs => by simp only [State.sendEvent, hs]
  case pPowerOff => exact send h rfl fun hs => by simp only [State.sendEvent, hs]

/-- Everything a wait step can do (R211, R243). -/
theorem waitStep_next {s t : State} (h : waitStep s = .next t) :
    (s.lineReady = true ∧ t = (s.sampleLine.emit .wait).advance) ∨
      (s.lineReady = false ∧ t = s.sampleLine) := by
  unfold waitStep at h
  split at h
  · exact .inl ⟨‹_›, by simpa [eq_comm] using h⟩
  · rename_i hr
    exact .inr ⟨Bool.eq_false_iff.mpr hr, by simpa [eq_comm] using h⟩

/-- The commit always answers: it writes the "next" plane's bytes from `PREV_BASE` on and advances (R214). -/
theorem commitStep_eq (s : State) :
    commitStep s =
      .next (s.setFb (s.fb.write s.profile.planeSize (s.fbBytes 0 s.profile.planeSize))).advance := by
  unfold commitStep
  rw [State.nextBase_eq, State.prevBase_eq, State.memRead_of_le (by unfold State.fbSize; omega)]
  simp only
  rw [State.memWrite_of_le (by simp only [State.length_fbBytes]; unfold State.fbSize; omega)]

/-- The end of a cycle always answers, by `REGEN` (R220). -/
theorem endCycle_eq (s : State) :
    endCycle s =
      match s.regen with
      | .off => .next s.finishCycle
      | .blackCycle =>
          .next (((s.delay.setFb (s.fb.write 0 (s.solidPlane .white))).setRegen .whiteCycle).startCycle .fast)
      | .whiteCycle => .next (s.setRegen .off).finishCycle := by
  unfold endCycle
  rw [State.clearSolid_eq]
  cases s.regen <;> rfl

/-- Everything OFF_WAIT can do (R220). -/
theorem offWaitStep_next {s t : State} (h : offWaitStep s = .next t) :
    (s.lineReady = true ∧ endCycle (s.sampleLine.emit .wait) = .next t) ∨
      (s.lineReady = false ∧ t = s.sampleLine) := by
  unfold offWaitStep at h
  split at h
  · exact .inl ⟨‹_›, h⟩
  · rename_i hr
    exact .inr ⟨Bool.eq_false_iff.mpr hr, by simpa [eq_comm] using h⟩

end Sys2Proof.Machine
end

