-- ==== Sys2Proof/Tests/Slice0.lean ====
section
/-! SUPPORT. Tests of the model: the well-formedness smoke tests, words written out from the spec's encodings,
single steps against the vectors of 95_test_vectors.md (their numbers V1 to V35 stand with each test), and the
witnesses that meet the hypotheses of the obligations. -/

namespace Sys2Proof.Machine.Tests

/-! ## Small states: the parameters of vector V9 -/

/-- The parameters of V9 with the rows TINY (1), TINY2 (2) and SLOW (3). -/
def params : Params where
  profileTable :=
    [ (0x000001#24, ⟨16, 8, false, true, false, 0xCF#8, 0x8D#8, 0x07#8, 0x27#8, 0x17#8⟩),
      (0x000002#24, ⟨16, 16, true, true, true, 0xCF#8, 0x8D#8, 0x07#8, 0x27#8, 0x17#8⟩),
      (0x000003#24, ⟨8, 8, false, false, false, 0x0F#8, 0x0E#8, 0x07#8, 0x27#8, 0x17#8⟩) ]
  softResetData := 0x0E#8
  tempDefault := 0x19#8
  tempActivateData := 0x02#8
  cmdPowerOff := 0x02#8
  greyFrame := .logical
  greyBlackParity := 0

/-- The block before BEGIN with those parameters. -/
def fresh : State := { State.reset with params := params }

/-- The block after BEGIN of one of those rows. -/
def begun (code : ScreenCode) : State := { fresh with profile := resolve params code, init := true }

/-- TINY begun. -/
def tiny : State := begun 0x000001#24

/-- A FLUSH of a begun block standing at a step of its cycle, the line ready at the next wait. -/
def running (code : ScreenCode) (q : Seq) : State :=
  { begun code with seq := q, inProgress := some .flush, busyLine := [true] }

/-- What a result's next state shows under `f`. -/
def shows {α : Type} (f : State → α) : Result → Option α
  | .next t => some (f t)
  | .fault _ => none
  | .refused _ => none

/-- Why a result is refused. -/
def refusal : Result → Option Refusal
  | .next _ => none
  | .fault _ => none
  | .refused r => some r

/-- The last response. -/
def lastResponse (s : State) : Option Response := s.responses.getLast?

/-- The last event. -/
def lastEvent (s : State) : Option Event := s.trace.getLast?

/-! ## WellFormed refuses an ill-formed term of each check -/

theorem test_wellFormed_setPixel_x_negative : (Instr.setPixel (-1) 0 .black).wellFormed = false := by decide
theorem test_wellFormed_setPixel_x_large : (Instr.setPixel 8192 0 .black).wellFormed = false := by decide
theorem test_wellFormed_setPixel_y_negative : (Instr.setPixel 0 (-1) .black).wellFormed = false := by decide
theorem test_wellFormed_setPixel_y_large : (Instr.setPixel 0 8192 .black).wellFormed = false := by decide
theorem test_wellFormed_getPixel_x_negative : (Instr.getPixel (-1) 0).wellFormed = false := by decide
theorem test_wellFormed_getPixel_x_large : (Instr.getPixel 8192 0).wellFormed = false := by decide
theorem test_wellFormed_getPixel_y_negative : (Instr.getPixel 0 (-1)).wellFormed = false := by decide
theorem test_wellFormed_getPixel_y_large : (Instr.getPixel 0 8192).wellFormed = false := by decide
theorem test_wellFormed_setOrient_negative : (Instr.setOrient (-1)).wellFormed = false := by decide
theorem test_wellFormed_setOrient_large : (Instr.setOrient 4).wellFormed = false := by decide
theorem test_wellFormed_extremes : (Instr.setPixel 8191 8191 .reserved).wellFormed = true ∧
    (Instr.getPixel 8191 0).wellFormed = true ∧ (Instr.setOrient 3).wellFormed = true := by decide
/-- A table row of each ill-formed kind is refused (40_profile_resolver.md R133). -/
theorem test_rowWf_refuses :
    (ProfileRow.mk 0 8 false false false 0 0 0 0 0).wf = false ∧
    (ProfileRow.mk 65536 8 false false false 0 0 0 0 0).wf = false ∧
    (ProfileRow.mk 8 0 false false false 0 0 0 0 0).wf = false ∧
    (ProfileRow.mk 8 65536 false false false 0 0 0 0 0).wf = false ∧
    (ProfileRow.mk 8 12 false false false 0 0 0 0 0).wf = false ∧
    (ProfileRow.mk 15 8 true false false 0 0 0 0 0).wf = false ∧
    (ProfileRow.mk 65535 65528 false false false 0 0 0 0 0).wf = true := by decide

/-! ## Decoding words written out from the formats of 30_encoding.md R101, field by field -/

theorem test_decode_begin : decodeHostWord 0b0001_0000_000000000001010100001100#32 =
    some (.beginOp 0x00150C#24) := by decide
theorem test_decode_clear : decodeHostWord 0b0010_00_0000000000000_0000000000000#32 = some (.clear .white) ∧
    decodeHostWord 0b0010_01_0000000000000_0000000000000#32 = some (.clear .black) ∧
    decodeHostWord 0b0010_10_0000000000000_0000000000000#32 = some (.clear .grey) ∧
    decodeHostWord 0b0010_11_0000000000000_0000000000000#32 = some (.clear .reserved) := by decide
theorem test_decode_setPixel : decodeHostWord 0b0011_01_0000001100100_0000000110010#32 =
      some (.setPixel 100 50 .black) ∧
    decodeHostWord 0b0011_10_1111111111111_1111111111111#32 = some (.setPixel 8191 8191 .grey) := by decide
theorem test_decode_getPixel : decodeHostWord 0b0100_00_0000001100100_0000000110010#32 =
    some (.getPixel 100 50) := by decide
theorem test_decode_setOrient : decodeHostWord 0b0101_00_0000000000000_0000000000000#32 = some (.setOrient 0) ∧
    decodeHostWord 0b0101_11_0000000000000_0000000000000#32 = some (.setOrient 3) := by decide
theorem test_decode_setInvert : decodeHostWord 0b0110_00_0000000000000_0000000000000#32 =
      some (.setInvert false) ∧
    decodeHostWord 0b0110_01_0000000000000_0000000000000#32 = some (.setInvert true) := by decide
theorem test_decode_flush : decodeHostWord 0b0111_00_0000000000000_0000000000000#32 = some .flush := by decide
theorem test_decode_flushMode : decodeHostWord 0b1000_00_0000000000000_0000000000000#32 =
      some (.flushMode .fast) ∧
    decodeHostWord 0b1000_01_0000000000000_0000000000000#32 = some (.flushMode .partialMode) ∧
    decodeHostWord 0b1000_10_0000000000000_0000000000000#32 = some (.flushMode .globalMode) ∧
    decodeHostWord 0b1000_11_0000000000000_0000000000000#32 = some (.flushMode .noUpdate) := by decide
theorem test_decode_regenerate : decodeHostWord 0b1001_00_0000000000000_0000000000000#32 =
    some .regenerate := by decide
/-- The words V30 refuses: a reserved operation code, or a must-be-zero bit set. -/
theorem test_decode_illegal :
    (([0x00000000#32, 0x0FFFFFFF#32, 0xA0000000#32, 0xF0000000#32, 0x11000000#32, 0x20000001#32, 0x44000000#32,
        0x48000000#32, 0x50000001#32, 0x68000000#32, 0x6C000000#32, 0x70000001#32, 0x74000000#32, 0x80002000#32,
        0x90000001#32] : List HostWord).all fun w => (decodeHostWord w).isNone) = true := by rfl
/-- The panel transmissions of R112 and R113, at a frame size of 16 and the Power-Off code 0x02. -/
theorem test_decode_panel : ([(.idx 0b00000000#8 1, .pSoftReset), (.idx 0b11100101#8 1, .pTempInput),
      (.idx 0b11100000#8 1, .pTempActivate), (.idx 0b00000000#8 2, .pPsr), (.idx 0b01010000#8 1, .pVcom),
      (.idx 0b00010000#8 16, .pDataPrev), (.idx 0b00010011#8 16, .pDataNext), (.cmd8 0b00000100#8, .pPowerOn),
      (.cmd8 0b00010010#8, .pRefresh), (.cmd8 0x02#8, .pPowerOff)] : List (Wire × Instr)).all
    (fun p => decode 0x02#8 16 p.1 == some p.2) = true := by rfl
theorem test_decode_panel_refuses : decode 0x02#8 16 (.idx 0x00#8 3) = none ∧
    decode 0x02#8 16 (.idx 0x10#8 15) = none ∧ decode 0x02#8 16 (.cmd8 0x05#8) = none := by decide
theorem test_decodeTableWord : decodeTableWord 32 0x70000000 = some .flush ∧
    decodeTableWord 8 0x13 = some .pDataNext ∧ decodeTableWord 16 0 = none ∧
    decodeTableWord 32 (2 ^ 32) = none := by decide
/-- The call syntax of R123 and the default argument of R124. -/
theorem test_text : transcriptLine (.flushMode .fast) (.mode .globalMode) = some "flushMode(Fast) → Global" ∧
    clearDefault.text = some "clear(white)" := ⟨rfl, rfl⟩
/-- R108: white 00, black 01, Global 10, nothing for Done. -/
theorem test_response_codes : (Response.colour .white).code = some 0b00#2 ∧
    (Response.colour .black).code = some 0b01#2 ∧ (Response.mode .globalMode).code = some 0b10#2 ∧
    Response.done.code = none := by decide

/-! ## Single steps against the vectors -/

/-- V10. -/
theorem test_begin_dualHalf : shows (fun t => (t.profile.planeSize, t.profile.frameSize, t.init))
    (exec (.beginOp 0x000002#24) fresh) = some (32, 16, true) := by decide
/-- V10: an unknown code. -/
theorem test_begin_unknown : shows (fun t => t.profile) (exec (.beginOp 0xABCDEF#24) fresh) =
    some Profile.degenerate := by decide
/-- V18: white under INVERT = 1. -/
theorem test_clear_inverted : shows (fun t => (t.fbBytes 0 2, t.fbByte 15, t.fbByte 16))
    (exec (.clear .white) { tiny with invert := true }) =
      some ([0xFF#8, 0xFF#8], 0xFF#8, 0x00#8) := by decide
/-- V18: grey under INVERT = 1. -/
theorem test_clear_grey : shows (fun t => (t.fbBytes 0 4, t.fbBytes 14 3))
    (exec (.clear .grey) { tiny with invert := true }) =
      some ([0x55#8, 0xAA#8, 0x55#8, 0xAA#8], [0x55#8, 0xAA#8, 0x00#8]) := by decide
/-- V19: the one byte written in each orientation. -/
theorem test_setPixel_orientations :
    shows (fun t => t.fb) (exec (.setPixel 3 5 .black) tiny) = some [(5, 0x10#8)] ∧
    shows (fun t => t.fb) (exec (.setPixel 3 5 .black) { tiny with orient := .o1 }) = some [(3, 0x20#8)] ∧
    shows (fun t => t.fb) (exec (.setPixel 3 5 .black) { tiny with orient := .o2 }) = some [(10, 0x08#8)] ∧
    shows (fun t => t.fb) (exec (.setPixel 3 5 .black) { tiny with orient := .o3 }) =
      some [(12, 0x04#8)] := by decide
/-- V19: white into a black byte. V21: outside the rectangle. -/
theorem test_setPixel_white_and_outside :
    shows (fun t => t.fb) (exec (.setPixel 0 0 .white) { tiny with fb := [(0, 0xFF#8)] }) =
      some [(0, 0x7F#8)] ∧
    shows (fun t => (t.fb, lastResponse t)) (exec (.setPixel 8 0 .black) { tiny with fb := [(0, 0xFF#8)] }) =
      some ([(0, 0xFF#8)], some .done) := by decide
/-- V19: the reading with INVERT = 1 after FB[0] = 0x80. -/
theorem test_getPixel_inverted :
    shows lastResponse (exec (.getPixel 0 0) { tiny with fb := [(0, 0x80#8)], invert := true }) =
      some (some (.colour .white)) ∧
    shows lastResponse (exec (.getPixel 1 0) { tiny with fb := [(0, 0x80#8)], invert := true }) =
      some (some (.colour .black)) := by decide
/-- V21: every coordinate outside reads white. -/
theorem test_getPixel_outside :
    shows lastResponse (exec (.getPixel 8 0) { tiny with invert := true }) = some (some (.colour .white)) ∧
    shows lastResponse (exec (.getPixel 0 (-1)) { tiny with invert := true }) =
      some (some (.colour .white)) := by decide
/-- V17. -/
theorem test_setOrient : shows (fun t => (t.orient, t.fb)) (exec (.setOrient 1) tiny) =
    some (.o1, []) := by decide
/-- R107. -/
theorem test_setOrient_illegal : refusal (exec (.setOrient 4) tiny) = some .illegalOperand := by decide
/-- V17. -/
theorem test_setInvert : shows (fun t => (t.invert, t.fb)) (exec (.setInvert true) tiny) =
    some (true, []) := by decide
/-- R224: the mode and where the cycle starts. -/
theorem test_flush : shows (fun t => (t.mode, t.seq, t.trace))
    (exec .flush { tiny with mode := .globalMode }) = some (.fast, .cfgResetSend, []) := by decide
/-- V28, sixth row: Fast asked, None answered. -/
theorem test_flushMode_none : shows (fun t => (t.trace, lastResponse t, t.mode, t.seq))
    (exec (.flushMode .fast) { tiny with tempAnswers := [.noUpdate] }) =
      some ([.tempChk .fast .noUpdate, .report], some (.mode .noUpdate), .fast, .idle) := by decide
/-- V28, second row: Fast asked, Global answered. -/
theorem test_flushMode_global : shows (fun t => (t.trace, t.mode, t.seq))
    (exec (.flushMode .fast) { tiny with tempAnswers := [.globalMode] }) =
      some ([.tempChk .fast .globalMode], .globalMode, .cfgResetSend) := by decide
/-- V29: the black fill. -/
theorem test_regenerate : shows (fun t => (t.fbByte 0, t.fbByte 15, t.fbByte 16, t.regen))
    (exec .regenerate { tiny with fb := [(16, 0x80#8)] }) =
      some (0xFF#8, 0xFF#8, 0x80#8, .blackCycle) := by decide
/-- V22, event 1. -/
theorem test_pSoftReset : shows (fun t => (t.trace, t.seq)) (step (running 1 .cfgResetSend)) =
    some ([.idx 0x00#8 [0x0E#8]], .cfgResetWait) := by decide
/-- V22, event 3, and V23, event 4. -/
theorem test_pTempInput : shows lastEvent (step (running 1 .cfgTempSend)) =
      some (some (.idx 0xE5#8 [0x59#8])) ∧
    shows lastEvent (step { running 1 .cfgTempSend with mode := .globalMode }) =
      some (some (.idx 0xE5#8 [0x19#8])) := by decide
/-- V22, event 5. -/
theorem test_pTempActivate : shows lastEvent (step (running 1 .cfgActSend)) =
    some (some (.idx 0xE0#8 [0x02#8])) := by decide
/-- V22, event 7, and V23, event 8. -/
theorem test_pPsr : shows lastEvent (step (running 1 .cfgPsrSend)) =
      some (some (.idx 0x00#8 [0xDF#8, 0x8F#8])) ∧
    shows lastEvent (step { running 1 .cfgPsrSend with mode := .globalMode }) =
      some (some (.idx 0x00#8 [0xCF#8, 0x8D#8])) := by decide
/-- V24, events 9, 11 and 15. -/
theorem test_pVcom : shows lastEvent (step (running 2 .cfgVcomaSend)) = some (some (.idx 0x50#8 [0x07#8])) ∧
    shows lastEvent (step (running 2 .cfgVcomaltSend)) = some (some (.idx 0x50#8 [0x27#8])) ∧
    shows lastEvent (step (running 2 .rfrVcombSend)) = some (some (.idx 0x50#8 [0x17#8])) := by decide
/-- R249 on SLOW, whose planes are 8 bytes. -/
theorem test_pDataPrev : shows lastEvent (step { running 3 .xferPrevSend with fb := [(0, 0x80#8), (8, 0x40#8)] }) =
    some (some (.idx 0x10#8 [0x40#8, 0, 0, 0, 0, 0, 0, 0])) := by decide
/-- V25, event 10. -/
theorem test_pDataNext : shows lastEvent (step { running 3 .xferNextSend with fb := [(0, 0x80#8), (8, 0x40#8)] }) =
    some (some (.idx 0x13#8 [0x80#8, 0, 0, 0, 0, 0, 0, 0])) := by decide
/-- V22, event 14. -/
theorem test_pPowerOn : shows (fun t => (t.trace, t.seq)) (step (running 1 .rfrPonSend)) =
    some ([.cmd 0x04#8], .rfrPonWait) := by decide
/-- V22, event 16. -/
theorem test_pRefresh : shows (fun t => (t.trace, t.seq)) (step (running 1 .rfrRefreshSend)) =
    some ([.cmd 0x12#8], .rfrRefreshWait) := by decide
/-- V22, event 18. -/
theorem test_pPowerOff : shows (fun t => (t.trace, t.seq)) (step (running 1 .offSend)) =
    some ([.cmd 0x02#8], .offWait) := by decide
/-- V24: the commit copies the second half of the plane too. -/
theorem test_commit_dualHalf : shows (fun t => (t.fbByte 63, t.seq))
    (step { running 2 .xferCommit with fb := [(31, 0xAB#8)] }) = some (0xAB#8, .rfrVcombSend) := by decide
/-- V27: a line that is not ready holds the step. -/
theorem test_wait_busy : shows (fun t => (t.trace, t.seq))
    (step { running 1 .rfrPonWait with busyLine := [false] }) = some ([], .rfrPonWait) := by decide
/-- V29, events 38 and 39: the hand-over to the white cycle. -/
theorem test_offWait_regenerate : shows (fun t => (t.trace, t.regen, t.seq, t.fbByte 0))
    (step { running 1 .offWait with
      regen := .blackCycle, inProgress := some .regenerate, fb := [(0, 0xFF#8), (16, 0xFF#8)] }) =
      some ([.wait, .delay], .whiteCycle, .cfgResetSend, 0x00#8) := by decide
/-- V35 (a), (b), (c), (d). -/
theorem test_refusals :
    refusal (step { fresh with hostQueue := [0x34000000#32] }) = some .notBegun ∧
    refusal (step { running 1 .cfgTempWait with hostPort := some 0x20000000#32 }) = some .reentrant ∧
    refusal (step { tiny with hostQueue := [0xA0000000#32] }) = some (.illegalHostWord 0xA0000000#32) ∧
    refusal (step { tiny with hostQueue := [0x10000001#32] }) = some .alreadyBegun := by decide
/-- The first rows of V11 and a row of V12. -/
theorem test_toBuffer :
    (toBuffer tiny.profile 3 5 .o0).map (fun p => (p.bx, p.col, p.off, p.bit)) = some (5, 3, 5, 4) ∧
    (toBuffer tiny.profile 3 5 .o1).map (fun p => (p.bx, p.col, p.off, p.bit)) = some (3, 2, 3, 5) ∧
    (toBuffer tiny.profile 3 5 .o2).map (fun p => (p.bx, p.col, p.off, p.bit)) = some (10, 4, 10, 3) ∧
    (toBuffer tiny.profile 3 5 .o3).map (fun p => (p.bx, p.col, p.off, p.bit)) = some (12, 5, 12, 2) ∧
    (toBuffer (begun 2).profile 9 4 .o2).map (fun p => (p.bx, p.col, p.off, p.bit)) = some (11, 6, 22, 1) := by
  decide
/-- Rows of R166 on the 296 x 152 profile. -/
theorem test_toBuffer_big :
    let p := rowProfile ⟨296, 152, false, true, true, 0, 0, 0, 0, 0⟩
    (toBuffer p 100 50 .o0).map (fun q => (q.off, q.bit)) = some (962, 3) ∧
    (toBuffer p 100 50 .o1).map (fun q => (q.off, q.bit)) = some (1912, 2) ∧
    (toBuffer p 100 50 .o2).map (fun q => (q.off, q.bit)) = some (4661, 4) ∧
    (toBuffer p 100 50 .o3).map (fun q => (q.off, q.bit)) = some (3711, 5) ∧
    toBuffer p 152 0 .o0 = none ∧ toBuffer p 0 152 .o1 = none := by decide
/-- V16: grey in the buffer frame, pixels A and B under orientation 1. -/
theorem test_reduce_buffer_frame :
    (toBuffer tiny.profile 3 5 .o1).map (reduceColour { params with greyFrame := .buffer } .grey 3 5) =
      some .white ∧
    (toBuffer tiny.profile 3 4 .o1).map (reduceColour { params with greyFrame := .buffer } .grey 3 4) =
      some .black := by decide
/-- V17: the pixel of orientation 1 under orientation 0 (R158). -/
theorem test_fromBuffer : fromBuffer tiny.profile 3 5 .o0 = (2, 3) := by decide

/-! ## Witnesses: states and operands that meet the hypotheses of each obligation, clause by clause -/

theorem wellFormed_tiny : tiny.profile.WellFormed where
  sizeV_lt := by decide
  sizeH_lt := by decide
  sizeH_mod := by decide
  rowBytes := by decide
  plane := by decide
  frame := by decide

theorem wellFormed_tiny2 : (begun 2).profile.WellFormed where
  sizeV_lt := by decide
  sizeH_lt := by decide
  sizeH_mod := by decide
  rowBytes := by decide
  plane := by decide
  frame := by decide

theorem accepting_tiny : tiny.Accepting := by decide

/-- A cycle of TINY at a step, with a canonical `FB` that lists the last byte of each plane. -/
def marked (q : Seq) : State := { running 1 q with fb := [(15, 0x01#8), (31, 0x80#8)] }

theorem frameBufferInv_marked (q : Seq) : FrameBufferInv (marked q) where
  params_wf := (by decide : params.wf = true)
  profile_wf := wellFormed_tiny
  fb_wf := (by decide : Memory.wf [(15, 0x01#8), (31, 0x80#8)])
  fb_inside := (by decide : ∀ c ∈ ([(15, 0x01#8), (31, 0x80#8)] : Memory), c.1 < tiny.fbSize)

theorem frameBufferInv_tiny : FrameBufferInv tiny where
  params_wf := by decide
  profile_wf := wellFormed_tiny
  fb_wf := Memory.wf_nil
  fb_inside := by decide

theorem sequencerInv_tiny : SequencerInv tiny where
  idle_regen := by decide
  open_iff := by decide
  regen_iff := by decide
  begun := by decide
  mode_ne := by decide
  vcom := by decide
  vcomAlt := by decide

theorem sequencerInv_vcom : SequencerInv (running 2 .cfgVcomaltSend) where
  idle_regen := by decide
  open_iff := by decide
  regen_iff := by decide
  begun := by decide
  mode_ne := by decide
  vcom := by decide
  vcomAlt := by decide

theorem witness_DecodeOfEncode : (0x02#8 : Byte) ≠ 0x04#8 ∧ (0x02#8 : Byte) ≠ 0x12#8 ∧
    (Instr.setPixel 8191 0 .reserved).wellFormed = true ∧ (Instr.setOrient 3).wellFormed = true ∧
    Instr.pPowerOff.wellFormed = true := by decide

theorem witness_EncodeOfDecode : decodeHostWord 0x3FFFFFFF#32 = some (.setPixel 8191 8191 .reserved) := by
  decide

theorem witness_ReservedHostWords :
    ({ tiny with hostQueue := [0x11000000#32] } : State).PortOpen ∧ tiny.hostPort = none ∧
    (∀ r ∈ hostRows, 0x11000000#32 &&& r.mask ≠ r.pattern) ∧
    ({ tiny with hostPort := some 0x11000000#32 } : State).PortOpen ∧
    (0x0FFFFFFF#32).toNat / 2 ^ 28 = 0 ∧ 10 ≤ (0xA0000000#32).toNat / 2 ^ 28 := by decide

theorem witness_Transmissions : tiny.params.powerOffWf = true ∧
    (running 1 .xferPrevSend).profile.WellFormed ∧ (running 1 .xferPrevSend).seq.command = some .pDataPrev ∧
    (running 1 .rfrVcombSend).seq.command = some .pVcom :=
  ⟨by decide, wellFormed_tiny, by decide, by decide⟩

theorem witness_StepRunsTheDecodedHostWord :
    ({ tiny with hostQueue := [0x70000000#32] } : State).PortOpen ∧
    decodeHostWord 0x70000000#32 = some .flush ∧
    ({ tiny with hostPort := some 0x70000000#32 } : State).PortOpen ∧
    tiny.PortOpen ∧ tiny.hostPort = none ∧ tiny.hostQueue = [] := by decide

theorem witness_StepRunsThePanelCommand : (running 1 .offSend).hostPort = none ∧
    (running 1 .offSend).seq.command = some .pPowerOff := by decide

theorem witness_PlacedWord : decodeTableWord 32 0x1000150C = some (.beginOp 0x00150C#24) ∧
    decodeTableWord 32 0x70000000 = some .flush ∧ decodeTableWord 8 0x50 = some .pVcom := by decide

theorem witness_InitGates : fresh.PortOpen ∧ fresh.init = false ∧ Instr.flush.isHostOp = true ∧
    (∀ code, Instr.flush ≠ .beginOp code) ∧ tiny.PortOpen ∧ tiny.init = true :=
  ⟨by decide, by decide, by decide, fun _ => nofun, by decide, by decide⟩

theorem witness_ClosedPort : ¬ (running 1 .cfgTempWait).PortOpen ∧
    ¬ ({ running 1 .offWait with hostPort := some 0x00000000#32 } : State).PortOpen ∧
    ¬ ({ tiny with regen := .blackCycle } : State).PortOpen := by decide

theorem witness_IllegalOperands : tiny.Accepting ∧ ((-1 : Int) < 0 ∨ 3 < (-1 : Int)) ∧
    ((4 : Int) < 0 ∨ 3 < (4 : Int)) := by decide

/-- A row of every condition of R133 broken alone, and a table that breaks none. -/
theorem witness_Instantiation :
    (∀ r ∈ ([⟨0, 8, false, false, false, 0, 0, 0, 0, 0⟩, ⟨65536, 8, false, false, false, 0, 0, 0, 0, 0⟩,
        ⟨8, 0, false, false, false, 0, 0, 0, 0, 0⟩, ⟨8, 65536, false, false, false, 0, 0, 0, 0, 0⟩,
        ⟨8, 12, false, false, false, 0, 0, 0, 0, 0⟩, ⟨15, 8, true, false, false, 0, 0, 0, 0, 0⟩] :
        List ProfileRow),
      r.sizeV = 0 ∨ 2 ^ 16 ≤ r.sizeV ∨ r.sizeH = 0 ∨ 2 ^ 16 ≤ r.sizeH ∨ r.sizeH % 8 ≠ 0 ∨
        (r.dualHalf = true ∧ r.sizeV * (r.sizeH / 8) % 2 ≠ 0)) ∧
    (∀ entry ∈ params.profileTable,
      0 < entry.2.sizeV ∧ entry.2.sizeV < 2 ^ 16 ∧ 0 < entry.2.sizeH ∧ entry.2.sizeH < 2 ^ 16 ∧
        entry.2.sizeH % 8 = 0 ∧ (entry.2.dualHalf = true → entry.2.sizeV * (entry.2.sizeH / 8) % 2 = 0)) ∧
    params.cmdPowerOff ≠ 0x04#8 ∧ params.cmdPowerOff ≠ 0x12#8 ∧
    ({ params with cmdPowerOff := 0x12#8 } : Params).cmdPowerOff = 0x12#8 := by decide

theorem witness_Begin : fresh.PortOpen ∧ fresh.init = false ∧ tiny.PortOpen ∧ tiny.init = true := by decide

/-- The last row listed, a row before which none has its code, and a code the table lacks. -/
theorem witness_Resolve :
    params.profileTable = params.profileTable.take 2 ++
      (0x000003#24, ⟨8, 8, false, false, false, 0x0F#8, 0x0E#8, 0x07#8, 0x27#8, 0x17#8⟩) :: [] ∧
    (∀ entry ∈ params.profileTable.take 2, entry.1 ≠ 0x000003#24) ∧
    ∀ entry ∈ params.profileTable, entry.1 ≠ 0xABCDEF#24 := by decide

/-- The far corner of the rectangle and the coordinates just outside it, orientations 0 and 2. -/
theorem witness_SwappingOrientations : (Orientation.o2 = .o0 ∨ Orientation.o2 = .o2) ∧
    (0 ≤ (7 : Int) ∧ (7 : Int) < tiny.profile.sizeH ∧ 0 ≤ (15 : Int) ∧ (15 : Int) < tiny.profile.sizeV) ∧
    ¬ (0 ≤ (8 : Int) ∧ (8 : Int) < tiny.profile.sizeH ∧ 0 ≤ (0 : Int) ∧ (0 : Int) < tiny.profile.sizeV) ∧
    ¬ (0 ≤ (0 : Int) ∧ (0 : Int) < tiny.profile.sizeH ∧ 0 ≤ (16 : Int) ∧ (16 : Int) < tiny.profile.sizeV) := by
  decide

/-- The same for orientations 1 and 3. -/
theorem witness_MirroringOrientations : (Orientation.o3 = .o1 ∨ Orientation.o3 = .o3) ∧
    (0 ≤ (15 : Int) ∧ (15 : Int) < tiny.profile.sizeV ∧ 0 ≤ (7 : Int) ∧ (7 : Int) < tiny.profile.sizeH) ∧
    ¬ (0 ≤ (16 : Int) ∧ (16 : Int) < tiny.profile.sizeV ∧ 0 ≤ (0 : Int) ∧ (0 : Int) < tiny.profile.sizeH) ∧
    ¬ (0 ≤ (-1 : Int) ∧ (-1 : Int) < tiny.profile.sizeV ∧ 0 ≤ (0 : Int) ∧ (0 : Int) < tiny.profile.sizeH) := by
  decide

theorem witness_Bijection : tiny.profile.WellFormed ∧ (toBuffer tiny.profile 7 15 .o0).isSome = true ∧
    (toBuffer tiny.profile 15 7 .o3).isSome = true ∧ 15 < tiny.profile.planeSize ∧ 7 ≤ 7 :=
  ⟨wellFormed_tiny, by decide, by decide, by decide, by decide⟩

theorem witness_Grey : (toBuffer tiny.profile 6 14 .o0).isSome = true ∧
    (toBuffer tiny.profile (6 + 1) 14 .o0).isSome = true ∧
    (toBuffer tiny.profile 6 (14 + 1) .o0).isSome = true ∧ params.greyFrame = .logical ∧
    ({ params with greyFrame := .buffer } : Params).greyFrame = .buffer := by decide

theorem witness_ClearSolid : tiny.Accepting ∧ ({ tiny with invert := true } : State).Accepting ∧
    (ColourArg.white, tiny.invert, 0x00#8) ∈
      ([(.white, false, 0x00#8), (.black, false, 0xFF#8), (.white, true, 0xFF#8), (.black, true, 0x00#8)] :
        List (ColourArg × Bool × Byte)) := by decide

theorem witness_ClearGrey : tiny.Accepting ∧ tiny.profile.WellFormed ∧ 15 < tiny.profile.sizeV ∧
    0 < tiny.profile.bufferRowBytes := ⟨accepting_tiny, wellFormed_tiny, by decide, by decide⟩

/-- For SETPIXEL, GETPIXEL, the round trip, the grey clear and the change of orientation. -/
theorem witness_Pixel : tiny.Accepting ∧ tiny.profile.WellFormed ∧ colourOperand .grey = some .grey ∧
    ∃ place, toBuffer tiny.profile 7 15 tiny.orient = some place :=
  ⟨accepting_tiny, wellFormed_tiny, rfl, _, rfl⟩

theorem witness_OutOfRange : tiny.Accepting ∧ ¬ InRect tiny.profile 8 0 tiny.orient ∧
    ¬ InRect tiny.profile 0 16 tiny.orient ∧ ¬ InRect tiny.profile (-1) 0 tiny.orient ∧
    ColourArg.black ≠ .reserved := by decide

theorem witness_ClearBlack : tiny.Accepting ∧ tiny.profile.WellFormed ∧ InRect tiny.profile 7 15 tiny.orient ∧
    ¬ InRect tiny.profile 8 15 tiny.orient := ⟨accepting_tiny, wellFormed_tiny, by decide, by decide⟩

theorem witness_Degenerate : (begun 0xABCDEF#24).Accepting ∧ (begun 0xABCDEF#24).profile = Profile.degenerate ∧
    ColourArg.grey ≠ .reserved := by decide

theorem witness_Scenarios : (running 1 .cfgResetSend).profile.fastCapable = true ∧
    (running 1 .cfgResetSend).profile.altVoltageTable = false ∧ (running 1 .cfgResetSend).mode = .fast ∧
    ({ running 1 .cfgResetSend with mode := .globalMode } : State).mode = .globalMode := by decide

theorem witness_Idempotent :
    (∃ t u, exec (.clear .grey) tiny = .next t ∧ exec (.clear .grey) t = .next u) ∧
    ∃ t u, exec (.setPixel 7 15 .black) tiny = .next t ∧ exec (.setPixel 7 15 .black) t = .next u :=
  ⟨⟨_, _, rfl, rfl⟩, ⟨_, _, rfl, rfl⟩⟩

/-- For SETORIENT, SETINVERT, FLUSH, FLUSHMODE and the start of REGENERATE. -/
theorem witness_Accepting : tiny.Accepting ∧ ({ tiny with tempAnswers := [.noUpdate] } : State).Accepting ∧
    ({ tiny with tempAnswers := [.globalMode] } : State).Accepting := by decide

/-- Every send step of the statements about panel commands. -/
theorem witness_Sends : ∀ q ∈ [Seq.cfgResetSend, .cfgTempSend, .cfgActSend, .cfgPsrSend, .cfgVcomaSend,
    .cfgVcomaltSend, .rfrVcombSend, .rfrPonSend, .rfrRefreshSend, .offSend], (running 2 q).seq = q := by decide

theorem witness_Transfers : (running 2 .xferPrevSend).profile.WellFormed ∧
    (running 2 .xferPrevSend).seq = .xferPrevSend ∧ (running 2 .xferNextSend).seq = .xferNextSend :=
  ⟨wellFormed_tiny2, rfl, rfl⟩

theorem witness_PanelAway : Instr.pVcom.isHostOp = false ∧ tiny.seq.command ≠ some .pVcom ∧
    (running 2 .cfgPsrSend).seq.command ≠ some .pVcom := by decide

theorem witness_Wait : (running 1 .cfgResetWait).hostPort = none ∧ (running 1 .cfgResetWait).seq.isWait = true ∧
    (running 1 .cfgResetWait).seq ≠ .offWait ∧ (running 1 .cfgResetWait).busyLine = true :: [] := by decide

theorem witness_Commit : (running 2 .xferCommit).hostPort = none ∧ (running 2 .xferCommit).seq = .xferCommit ∧
    31 < (running 2 .xferCommit).profile.planeSize := by decide

/-- A ready sample, a busy one and none left, and each value of `REGEN`. -/
theorem witness_OffWait : (running 1 .offWait).hostPort = none ∧ (running 1 .offWait).seq = .offWait ∧
    (running 1 .offWait).busyLine = true :: [] ∧ (running 1 .offWait).regen = .off ∧
    ({ running 1 .offWait with busyLine := [false] } : State).busyLine = false :: [] ∧
    ({ running 1 .offWait with busyLine := [] } : State).busyLine = [] ∧
    ({ running 1 .offWait with regen := .blackCycle } : State).regen = .blackCycle ∧
    ({ running 1 .offWait with regen := .whiteCycle, inProgress := some .regenerate } : State).inProgress =
      some .regenerate := by decide

/-- A send, a busy wait and the end of a cycle. -/
theorem witness_SeqOnlyAdvances : ¬ (running 1 .rfrPonSend).PortOpen ∧
    (∃ t, step (running 1 .rfrPonSend) = .next t) ∧
    (∃ t, step { running 1 .rfrPonWait with busyLine := [false] } = .next t) ∧
    (∃ t, step (running 1 .offWait) = .next t) ∧
    ∃ t, step { running 1 .offWait with regen := .blackCycle, inProgress := some .regenerate } = .next t :=
  ⟨by decide, ⟨_, rfl⟩, ⟨_, rfl⟩, ⟨_, rfl⟩, ⟨_, rfl⟩⟩

theorem witness_NonWait : FrameBufferInv (marked .xferPrevSend) ∧ (marked .xferPrevSend).hostPort = none ∧
    (marked .xferPrevSend).seq ≠ .idle ∧ (marked .xferPrevSend).seq.isWait = false :=
  ⟨frameBufferInv_marked _, by decide, by decide, by decide⟩

theorem witness_FrameBufferSound : FrameBufferInv (marked .xferCommit) ∧
    (∃ t, step (marked .xferCommit) = .next t) ∧ FrameBufferInv tiny :=
  ⟨frameBufferInv_marked _, ⟨_, rfl⟩, frameBufferInv_tiny⟩

theorem witness_SequencerSound : SequencerInv (running 2 .cfgVcomaltSend) ∧
    ∃ t, step (running 2 .cfgVcomaltSend) = .next t := ⟨sequencerInv_vcom, _, rfl⟩

theorem witness_PowerBracket : PowerInv { running 1 .offSend with trace := [.cmd 0x04#8, .cmd 0x12#8] } ∧
    ∃ t, step { running 1 .offSend with trace := [.cmd 0x04#8, .cmd 0x12#8] } = .next t :=
  ⟨⟨by decide, by decide⟩, _, rfl⟩

/-- A refused step from a sound sequencer. -/
theorem witness_OnlyTheHost : SequencerInv { tiny with hostQueue := [0x00000000#32] } ∧
    step { tiny with hostQueue := [0x00000000#32] } = .refused (.illegalHostWord 0x00000000#32) :=
  ⟨⟨by decide, by decide, by decide, by decide, by decide, by decide, by decide⟩, rfl⟩

theorem witness_ProfileImmutable : (marked .rfrPonSend).init = true ∧
    ∃ t, step (marked .rfrPonSend) = .next t := ⟨rfl, _, rfl⟩

theorem witness_PreviousPlane : FrameBufferInv (marked .xferNextSend) ∧ (marked .xferNextSend).init = true ∧
    (marked .xferNextSend).seq ≠ .xferCommit ∧ (∃ t, step (marked .xferNextSend) = .next t) ∧
    (marked .xferNextSend).profile.planeSize ≤ 31 :=
  ⟨frameBufferInv_marked _, rfl, by decide, ⟨_, rfl⟩, by decide⟩

theorem witness_NextPlaneStable : ¬ (marked .xferCommit).PortOpen ∧
    ¬ ((marked .xferCommit).seq = .offWait ∧ (marked .xferCommit).regen = .blackCycle) ∧
    (∃ t, step (marked .xferCommit) = .next t) ∧ 15 < (marked .xferCommit).profile.planeSize :=
  ⟨by decide, by decide, ⟨_, rfl⟩, by decide⟩

theorem witness_NoPanelCommand : ({ tiny with hostQueue := [0x8C000000#32], tempAnswers := [.noUpdate] } :
      State).PortOpen ∧
    ∃ t, step { tiny with hostQueue := [0x8C000000#32], tempAnswers := [.noUpdate] } = .next t :=
  ⟨by decide, _, rfl⟩

theorem witness_CyclesIgnore : (marked .xferNextSend).seq ≠ .idle ∧ (marked .xferNextSend).regen = .off ∧
    ∃ t, step (marked .xferNextSend) = .next t := ⟨by decide, rfl, _, rfl⟩

theorem witness_OneCycle :
    ({ running 2 .cfgResetSend with busyLine := List.replicate 9 true } : State).profile.WellFormed ∧
    ({ running 2 .cfgResetSend with busyLine := List.replicate 9 true } : State).busyLine =
      List.replicate ({ running 2 .cfgResetSend with busyLine := List.replicate 9 true } : State).cycleWaits true
        ++ [] ∧
    (running 2 .cfgResetSend).seq = .cfgResetSend ∧ (running 2 .cfgResetSend).regen = .off ∧
    (running 2 .cfgResetSend).hostPort = none :=
  ⟨wellFormed_tiny2, by decide, rfl, rfl, rfl⟩

theorem witness_Regenerate :
    ({ tiny with busyLine := List.replicate 16 true } : State).Accepting ∧ tiny.hostPort = none ∧
    tiny.profile.WellFormed ∧
    ({ tiny with busyLine := List.replicate 16 true } : State).busyLine =
      List.replicate (2 * ({ tiny with mode := .fast } : State).cycleWaits) true ++ [] :=
  ⟨by decide, rfl, wellFormed_tiny, by decide⟩

end Sys2Proof.Machine.Tests
end

section
/-! PROOFS. What a step runs: the host word the open port takes, the panel command `SEQ` selects, and the word
`withFetchWord` places (00_scope.md R8, 10_state.md R42, log 7). -/

namespace Sys2Proof.Machine

/-! ## The host word the open port takes -/

theorem takeHostWord_of_hostPort {s : State} {w : HostWord} (h : s.hostPort = some w) :
    s.takeHostWord = some (w, { s with hostPort := none }) := by
  unfold State.takeHostWord
  rw [h]

theorem takeHostWord_of_hostQueue {s : State} {w : HostWord} {rest : List HostWord} (hport : s.hostPort = none)
    (hqueue : s.hostQueue = w :: rest) : s.takeHostWord = some (w, { s with hostQueue := rest }) := by
  unfold State.takeHostWord
  rw [hport, hqueue]

theorem takeHostWord_of_empty {s : State} (hport : s.hostPort = none) (hqueue : s.hostQueue = []) :
    s.takeHostWord = none := by
  unfold State.takeHostWord
  rw [hport, hqueue]

/-! ## What a step runs -/

theorem step_of_takeHostWord {s t : State} {w : HostWord} {i : Instr} (hopen : s.PortOpen)
    (htake : s.takeHostWord = some (w, t)) (hdecode : decodeHostWord w = some i) : step s = exec i t := by
  rw [step_of_open hopen]
  unfold hostStep runHostWord
  simp only [htake, hdecode]

theorem step_of_noHostWord {s : State} (hopen : s.PortOpen) (htake : s.takeHostWord = none) : step s = .next s := by
  rw [step_of_open hopen]
  unfold hostStep
  simp only [htake]

/-- At a send step a cycle is running (R42, R44). -/
theorem not_portOpen_of_command {s : State} {i : Instr} (h : s.seq.command = some i) : ¬ s.PortOpen := by
  rintro ⟨hidle, -⟩
  rw [hidle] at h
  cases h

theorem step_of_command {s : State} {i : Instr} (hport : s.hostPort = none) (h : s.seq.command = some i) :
    step s = exec i s := by
  rw [step_of_closed (not_portOpen_of_command h)]
  unfold closedStep
  simp only [hport]
  exact cycleStep_of_command h

/-! ## What an opcode-table word decodes to -/

/-- The host operations are the instructions no step of `SEQ` sends (R103, R112). -/
theorem sendSite_eq_none_iff {i : Instr} : sendSite i = none ↔ i.isHostOp = true := by
  cases i <;> simp [sendSite, Instr.isHostOp]

/-- A panel byte decodes to a panel command (R112). -/
theorem isHostOp_of_decodePanelByte {b : Byte} {i : Instr} (h : decodePanelByte b = some i) :
    i.isHostOp = false := by
  unfold decodePanelByte decodeCmd8 at h
  repeat' split at h
  all_goals cases h <;> rfl

/-- A table word that decodes to a host operation is its host word; the placed word is that word (log 7). -/
theorem decodeHostWord_of_decodeTableWord {nbits w : Nat} {i : Instr} (h : decodeTableWord nbits w = some i)
    (hi : i.isHostOp = true) : decodeHostWord (BitVec.ofNat 32 w) = some i := by
  unfold decodeTableWord at h
  split at h
  · split at h
    · exact h
    · cases h
  · split at h
    · split at h
      · rw [isHostOp_of_decodePanelByte h] at hi
        cases hi
      · cases h
    · cases h

/-! ## The placed instruction -/

theorem placeInstr_of_sendSite {s : State} {i : Instr} {q : Seq} (w : HostWord) (h : sendSite i = some q) :
    s.placeInstr w (some i) = { s with seq := q, init := true, hostPort := none } := by
  unfold State.placeInstr
  rw [Option.bind_some, h]

/-- A host operation is placed at the head of the host's program, with the port open. -/
theorem placeInstr_of_hostOp {s : State} {i : Instr} (w : HostWord) (h : sendSite i = none) :
    s.placeInstr w (some i) =
      { s with
        hostQueue := w :: s.hostQueue
        hostPort := none
        seq := .idle
        regen := .off
        init := (s.placeInstr w (some i)).init } := by
  unfold State.placeInstr
  rw [Option.bind_some, h]

/-! ## The obligations -/

/-- Settles O6: one clause for each case of the word the open port takes. -/
theorem stepRunsTheDecodedHostWord : Obligations.StepRunsTheDecodedHostWord := by
  intro s hopen
  refine ⟨fun w rest i hport hqueue hdecode => ?_, fun w i hport hdecode => ?_, fun hport hqueue => ?_⟩
  · exact step_of_takeHostWord hopen (takeHostWord_of_hostQueue hport hqueue) hdecode
  · exact step_of_takeHostWord hopen (takeHostWord_of_hostPort hport) hdecode
  · exact step_of_noHostWord hopen (takeHostWord_of_empty hport hqueue)

/-- Settles O8: a panel command runs at the `SEQ` step it is placed at, a host operation from the head of the
host's program. -/
theorem placedWordRunsNext : Obligations.PlacedWordRunsNext := by
  intro s nbits w i h
  unfold State.withFetchWord
  rw [h]
  cases hsite : sendSite i with
  | some q =>
    rw [placeInstr_of_sendSite _ hsite]
    exact ⟨_, step_of_command rfl (command_of_sendSite hsite), rfl⟩
  | none =>
    have hdecode := decodeHostWord_of_decodeTableWord h (sendSite_eq_none_iff.mp hsite)
    rw [placeInstr_of_hostOp _ hsite]
    exact ⟨_, step_of_takeHostWord ⟨rfl, rfl⟩ (takeHostWord_of_hostQueue rfl rfl) hdecode, rfl⟩

end Sys2Proof.Machine
end

section
/-! PROOFS. The state of the block (10_state.md): the gates of the host port, the block before BEGIN, and what every
step keeps. `step_next` says once how a step moves the registers; the invariants are case analyses over it. -/

namespace Sys2Proof.Machine

/-! ## The gates of the host port -/

theorem State.whenBegun_of_notBegun {s : State} (hopen : s.PortOpen) (hinit : s.init = false) (body : Result) :
    s.whenBegun body = .refused .notBegun := by
  rw [State.whenBegun, State.whenOpen_of_open hopen, hinit]
  rfl

theorem State.whenBegun_of_closed {s : State} (hclosed : ¬ s.PortOpen) (body : Result) :
    s.whenBegun body = .refused .reentrant :=
  State.whenOpen_of_closed hclosed _

/-- Every host operation but BEGIN asks for an open port and `INIT` = 1 before anything else (R40, R42). -/
theorem exec_eq_whenBegun {i : Instr} (hhost : i.isHostOp = true) (hbegin : ∀ code, i ≠ .beginOp code) (s : State) :
    ∃ body, exec i s = s.whenBegun body := by
  cases i with
  | beginOp code => exact absurd rfl (hbegin code)
  | clear | setPixel | getPixel | setOrient | setInvert | flush | flushMode | regenerate => exact ⟨_, rfl⟩
  | _ => cases hhost

theorem exec_beginOp_of_begun {s : State} (hopen : s.PortOpen) (hinit : s.init = true) (code : ScreenCode) :
    exec (.beginOp code) s = .refused .alreadyBegun := by
  change s.whenOpen _ = _
  rw [State.whenOpen_of_open hopen, if_pos hinit]

theorem exec_hostOp_of_closed {s : State} {i : Instr} (hclosed : ¬ s.PortOpen) (hhost : i.isHostOp = true) :
    exec i s = .refused .reentrant := by
  by_cases hbegin : ∃ code, i = .beginOp code
  · obtain ⟨code, rfl⟩ := hbegin
    exact State.whenOpen_of_closed hclosed _
  · obtain ⟨body, hbody⟩ := exec_eq_whenBegun hhost (not_exists.mp hbegin) s
    rw [hbody, State.whenBegun_of_closed hclosed]

theorem step_of_closed_of_hostPort {s : State} {w : HostWord} (hclosed : ¬ s.PortOpen) (hport : s.hostPort = some w) :
    step s = .refused .reentrant := by
  rw [step_of_closed hclosed, closedStep, hport]

/-! ## How a step moves the registers -/

/-- `t` carries `s` on: profile, parameters and `INIT` are the same, the trace has only grown, and `FB` is untouched
or was written once, inside its bounds (10_state.md R31, R50, 20_memory.md R79). Every step but BEGIN does this. -/
structure State.Continues (s t : State) : Prop where
  profile : t.profile = s.profile
  params : t.params = s.params
  init : t.init = s.init
  trace : s.trace <+: t.trace
  fb : t.fb = s.fb ∨ ∃ (a : Nat) (bytes : List Byte), a + bytes.length ≤ s.fbSize ∧ t.fb = s.fb.write a bytes

/-- How a step other than BEGIN moves `SEQ`, `REGEN`, `MODE` and the operation in progress: not at all (an operation
that answers at once, or a busy sample), along `next(SEQ)`, into a cycle, from a REGENERATE's first cycle to its second
(log 18), or out of a cycle (10_state.md R43, 43_cog_update.md R201, R204, R220). -/
inductive State.Moves (s t : State) : Prop
  | stays (why : s.PortOpen ∨ s.seq.isWait = true ∧ t.trace = s.trace) (seq : t.seq = s.seq)
      (regen : t.regen = s.regen) (mode : t.mode = s.mode) (op : t.inProgress = s.inProgress)
  | advances (running : s.seq ≠ .idle) (inside : s.seq ≠ .offWait) (seq : t.seq = s.nextSeq)
      (regen : t.regen = s.regen) (mode : t.mode = s.mode) (op : t.inProgress = s.inProgress)
  | starts (isOpen : s.PortOpen) (begun : s.init = true) (seq : t.seq = .cfgResetSend) (mode : t.mode ≠ .noUpdate)
      (op : t.inProgress ≠ none) (regen : t.regen ≠ .off ↔ t.inProgress = some .regenerate)
  | handsOver (last : s.seq = .offWait) (black : s.regen = .blackCycle) (seq : t.seq = .cfgResetSend)
      (regen : t.regen = .whiteCycle) (mode : t.mode = .fast) (op : t.inProgress = s.inProgress)
  | finishes (last : s.seq = .offWait) (seq : t.seq = .idle) (regen : t.regen = .off) (mode : t.mode = s.mode)
      (op : t.inProgress = none)

/-- `t` is what a BEGIN leaves of `s`, once its host word is taken (R54, R136). -/
def State.Begins (s t : State) : Prop :=
  s.PortOpen ∧ s.init = false ∧ ∃ port queue code,
    t = (({ s with hostPort := port, hostQueue := queue } : State).begun code).respond .done

/-! ### Taking a host word touches none of this -/

section TakeHostWord

variable {s t u : State} {w : HostWord}

theorem State.Continues.of_takeHostWord (htake : s.takeHostWord = some (w, u)) (h : u.Continues t) :
    s.Continues t := by
  rw [takeHostWord_eq_some htake] at h
  exact ⟨h.profile, h.params, h.init, h.trace, h.fb⟩

theorem State.Moves.of_takeHostWord (htake : s.takeHostWord = some (w, u)) (h : u.Moves t) : s.Moves t := by
  rw [takeHostWord_eq_some htake] at h
  cases h with
  | stays why seq regen mode op => exact .stays why seq regen mode op
  | advances running inside seq regen mode op => exact .advances running inside seq regen mode op
  | starts isOpen begun seq mode op regen => exact .starts isOpen begun seq mode op regen
  | handsOver last black seq regen mode op => exact .handsOver last black seq regen mode op
  | finishes last seq regen mode op => exact .finishes last seq regen mode op

theorem State.Begins.of_takeHostWord (htake : s.takeHostWord = some (w, u)) (h : u.Begins t) : s.Begins t := by
  rw [takeHostWord_eq_some htake] at h
  exact h

end TakeHostWord

/-! ### Host operations -/

section HostOperations

variable {s t : State}

/-- An operation that answers at once and writes neither `FB` nor `TRACE` sets registers of the Pixel Addressing Engine
at most (R14, R164, R165). -/
theorem State.continues_of_answered (hopen : s.PortOpen)
    (h : t = { s with orient := t.orient, invert := t.invert, responses := t.responses }) :
    s.Continues t ∧ s.Moves t := by
  rw [h]
  exact ⟨⟨rfl, rfl, rfl, List.prefix_rfl, .inl rfl⟩, .stays (.inl hopen) rfl rfl rfl rfl⟩

/-- CLEAR writes one plane inside `FB` (R180, R181). -/
theorem execClear_continues {c : ColourArg} (h : execClear c s = .next t) : s.Continues t ∧ s.Moves t := by
  obtain ⟨hopen, -, colour, u, -, hwrite, rfl⟩ := execClear_next h
  obtain ⟨bytes, hfits, rfl, -⟩ := clearWrite_eq_some hwrite
  exact ⟨⟨rfl, rfl, rfl, List.prefix_rfl, .inr ⟨0, bytes, by simpa using hfits, rfl⟩⟩,
    .stays (.inl hopen) rfl rfl rfl rfl⟩

/-- SETPIXEL writes one byte inside `FB`, or none for a pixel outside the rectangle (R182). -/
theorem execSetPixel_continues {x y : Int} {c : ColourArg} (h : execSetPixel x y c s = .next t) :
    s.Continues t ∧ s.Moves t := by
  obtain ⟨hopen, -, colour, -, ⟨-, rfl⟩ | ⟨place, u, -, hput, rfl⟩⟩ := execSetPixel_next h
  · exact State.continues_of_answered hopen rfl
  · obtain ⟨hoff, rfl⟩ := putPixel_eq_some hput
    exact ⟨⟨rfl, rfl, rfl, List.prefix_rfl, .inr ⟨place.off, [_], hoff, rfl⟩⟩,
      .stays (.inl hopen) rfl rfl rfl rfl⟩

/-- FLUSHMODE by the collaborator's answer: None answers at once, any other mode starts a cycle in it (R225). -/
theorem execFlushMode_continues {m : UpdateMode} (h : execFlushMode m s = .next t) :
    s.Continues t ∧ s.Moves t := by
  obtain ⟨hopen, hinit, rfl⟩ := execFlushMode_next h
  unfold State.applyMode State.checkTemperatureMode
  split
  · refine ⟨⟨?_, ?_, ?_, ?_, .inl ?_⟩, .stays (.inl hopen) ?_ ?_ ?_ ?_⟩ <;> simp
  · rename_i hanswer
    refine ⟨⟨?_, ?_, ?_, ?_, .inl ?_⟩, .starts hopen hinit ?_ hanswer ?_ ?_⟩ <;> simp [hopen.2]

theorem State.length_solidPlane_le (s : State) (c : BinColour) : 0 + (s.solidPlane c).length ≤ s.fbSize := by
  simp only [State.solidPlane, List.length_replicate, State.fbSize]
  omega

/-- A host operation that answers is a BEGIN of a block not begun, or carries the block on. -/
theorem execHost_next {i : Instr} (hhost : i.isHostOp = true) (h : exec i s = .next t) :
    s.Begins t ∨ s.Continues t ∧ s.Moves t := by
  cases i with
  | beginOp code =>
    obtain ⟨hopen, hinit, rfl⟩ := execBegin_next h
    exact .inl ⟨hopen, hinit, s.hostPort, s.hostQueue, code, rfl⟩
  | clear => exact .inr (execClear_continues h)
  | setPixel => exact .inr (execSetPixel_continues h)
  | getPixel =>
    obtain ⟨hopen, -, c, rfl⟩ := execGetPixel_next h
    exact .inr (State.continues_of_answered hopen rfl)
  | setOrient =>
    obtain ⟨hopen, -, orient, -, rfl⟩ := execSetOrient_next h
    exact .inr (State.continues_of_answered hopen rfl)
  | setInvert =>
    obtain ⟨hopen, -, rfl⟩ := execSetInvert_next h
    exact .inr (State.continues_of_answered hopen rfl)
  | flush =>
    obtain ⟨hopen, hinit, rfl⟩ := execFlush_next h
    exact .inr ⟨⟨rfl, rfl, rfl, List.prefix_rfl, .inl rfl⟩,
      .starts hopen hinit rfl (by simp) (by simp) (by simp [hopen.2])⟩
  | flushMode => exact .inr (execFlushMode_continues h)
  | regenerate =>
    obtain ⟨hopen, hinit, rfl⟩ := execRegenerate_next h
    exact .inr ⟨⟨rfl, rfl, rfl, List.prefix_rfl, .inr ⟨0, _, s.length_solidPlane_le .black, rfl⟩⟩,
      .starts hopen hinit rfl (by simp) (by simp) (by simp)⟩
  | _ => cases hhost

end HostOperations

/-! ### Cycle steps -/

section CycleSteps

variable {s t : State}

theorem nextSeq_sampleLine_emit (s : State) (e : Event) : (s.sampleLine.emit e).nextSeq = s.nextSeq := by
  rw [sampleLine_eq]
  rfl

/-- A send step transmits its event and goes to `next(SEQ)` (R205 to R219). -/
theorem execCommand_continues {i : Instr} (hcommand : s.seq.command = some i) (h : exec i s = .next t) :
    s.Continues t ∧ s.Moves t := by
  obtain ⟨-, rfl⟩ := execPanel_next (isHostOp_of_command hcommand) h
  have hrunning : s.seq ≠ .idle := fun hseq => by simp [hseq, Seq.command] at hcommand
  have hinside : s.seq ≠ .offWait := fun hseq => by simp [hseq, Seq.command] at hcommand
  exact ⟨⟨rfl, rfl, rfl, List.prefix_append _ _, .inl rfl⟩, .advances hrunning hinside rfl rfl rfl rfl⟩

/-- XFER_COMMIT writes the "previous" plane, which lies inside `FB` (R214). -/
theorem commitStep_continues (hcommit : s.seq = .xferCommit) (h : commitStep s = .next t) :
    s.Continues t ∧ s.Moves t := by
  rw [commitStep_eq, Host.Outcome.next.injEq] at h
  subst h
  have hfits : s.profile.planeSize + (s.fbBytes 0 s.profile.planeSize).length ≤ s.fbSize := by
    rw [State.length_fbBytes, State.fbSize]
    omega
  exact ⟨⟨rfl, rfl, rfl, List.prefix_rfl, .inr ⟨_, _, hfits, rfl⟩⟩,
    .advances (by simp [hcommit]) (by simp [hcommit]) rfl rfl rfl rfl⟩

theorem busySample_continues (hwait : s.seq.isWait = true) : s.Continues s.sampleLine ∧ s.Moves s.sampleLine := by
  refine ⟨⟨?_, ?_, ?_, ?_, .inl ?_⟩, .stays (.inr ⟨hwait, ?_⟩) ?_ ?_ ?_ ?_⟩ <;> simp

/-- A wait inside the cycle samples busy and stays, or ready and goes to `next(SEQ)` (R211, R218, R243). -/
theorem waitStep_continues (hwait : s.seq.isWait = true) (hinside : s.seq ≠ .offWait) (h : waitStep s = .next t) :
    s.Continues t ∧ s.Moves t := by
  obtain ⟨-, rfl⟩ | ⟨-, rfl⟩ := waitStep_next h
  · have hrunning : s.seq ≠ .idle := fun hseq => by simp [hseq, Seq.isWait] at hwait
    have hnext := nextSeq_sampleLine_emit s .wait
    refine ⟨⟨?_, ?_, ?_, ?_, .inl ?_⟩, .advances hrunning hinside hnext ?_ ?_ ?_⟩ <;> simp
  · exact busySample_continues hwait

/-- OFF_WAIT samples busy and stays, or ready and ends the cycle as `REGEN` says (R220). -/
theorem offWaitStep_continues (hlast : s.seq = .offWait) (h : offWaitStep s = .next t) :
    s.Continues t ∧ s.Moves t := by
  obtain ⟨-, hend⟩ | ⟨-, rfl⟩ := offWaitStep_next h
  · have hfits : 0 + ((s.sampleLine.emit .wait).solidPlane .white).length ≤ s.fbSize := by
      simpa [State.fbSize] using (s.sampleLine.emit .wait).length_solidPlane_le .white
    rw [endCycle_eq, State.emit_regen, State.sampleLine_regen] at hend
    cases hregen : s.regen with
    | off =>
      rw [hregen, Host.Outcome.next.injEq] at hend
      subst hend
      refine ⟨⟨?_, ?_, ?_, ?_, .inl ?_⟩, .finishes hlast ?_ ?_ ?_ ?_⟩ <;> simp [State.finishCycle, hregen]
    | blackCycle =>
      rw [hregen, Host.Outcome.next.injEq] at hend
      subst hend
      refine ⟨⟨?_, ?_, ?_, ?_, .inr ⟨0, _, hfits, ?_⟩⟩, .handsOver hlast hregen ?_ ?_ ?_ ?_⟩ <;> simp
    | whiteCycle =>
      rw [hregen, Host.Outcome.next.injEq] at hend
      subst hend
      refine ⟨⟨?_, ?_, ?_, ?_, .inl ?_⟩, .finishes hlast ?_ ?_ ?_ ?_⟩ <;> simp [State.finishCycle]
  · exact busySample_continues (hlast ▸ rfl)

end CycleSteps

/-- Every step is a BEGIN's or carries the block on, and moves the registers in one of the ways of `State.Moves`. -/
theorem step_next {s t : State} (h : step s = .next t) : s.Begins t ∨ s.Continues t ∧ s.Moves t := by
  obtain ⟨hopen, -, rfl⟩ | ⟨-, w, u, i, htake, hdecode, h⟩ | ⟨-, -, i, hcommand, h⟩ | ⟨-, -, hwait, hinside, h⟩ |
    ⟨-, -, hcommit, h⟩ | ⟨-, -, hlast, h⟩ := step_next_cases h
  · exact .inr (State.continues_of_answered hopen rfl)
  · rcases execHost_next (isHostOp_of_decodeHostWord hdecode) h with hbegins | ⟨hcontinues, hmoves⟩
    · exact .inl (hbegins.of_takeHostWord htake)
    · exact .inr ⟨hcontinues.of_takeHostWord htake, hmoves.of_takeHostWord htake⟩
  · exact .inr (execCommand_continues hcommand h)
  · exact .inr (waitStep_continues hwait hinside h)
  · exact .inr (commitStep_continues hcommit h)
  · exact .inr (offWaitStep_continues hlast h)

/-! ## The frame buffer -/

theorem FrameBufferInv.of_begins {s t : State} (hs : FrameBufferInv s) (h : s.Begins t) : FrameBufferInv t := by
  obtain ⟨-, -, port, queue, code, rfl⟩ := h
  have htable : s.params.tableWf = true := (Bool.and_eq_true_iff.mp hs.params_wf).1
  exact ⟨hs.params_wf, resolve_wellFormed htable code, Memory.wf_nil, fun c hc => nomatch hc⟩

theorem FrameBufferInv.of_continues {s t : State} (hs : FrameBufferInv s) (h : s.Continues t) :
    FrameBufferInv t := by
  have hsize : t.fbSize = s.fbSize := by rw [State.fbSize, h.profile, State.fbSize]
  refine ⟨h.params ▸ hs.params_wf, h.profile ▸ hs.profile_wf, ?_, ?_⟩
  all_goals obtain hfb | ⟨a, bytes, hfits, hfb⟩ := h.fb <;> rw [hfb]
  · exact hs.fb_wf
  · exact Memory.wf_write hs.fb_wf a bytes
  · exact hsize ▸ hs.fb_inside
  · exact hsize ▸ Memory.write_inside hs.fb_inside hfits

/-! ## The sequencer -/

theorem SequencerInv.of_begins {s t : State} (hs : SequencerInv s) (h : s.Begins t) : SequencerInv t := by
  obtain ⟨⟨hidle, hoff⟩, -, port, queue, code, rfl⟩ := h
  have hnone : s.inProgress = none := hs.open_iff.mp hidle
  constructor <;> simp [State.begun, hnone, Seq.isVcom, Seq.isVcomAlt]

/-- A step of the cycle has a successor in the cycle, but for OFF_WAIT (R204). -/
theorem nextSeq_ne_idle {s : State} (hrunning : s.seq ≠ .idle) (hinside : s.seq ≠ .offWait) :
    s.nextSeq ≠ .idle := by
  intro hnext
  have hlt := code_lt_nextSeq hrunning hinside
  rw [hnext] at hlt
  exact Nat.not_lt_zero _ hlt

/-- `next(SEQ)` reaches a Vcom step under its condition only (R209, R215). -/
theorem SequencerInv.vc_of_nextSeq {s : State} (hs : SequencerInv s) (hnext : s.nextSeq.isVcom = true) :
    s.vc = true := by
  by_contra hvc
  have hseq : s.seq.isVcom ≠ true := fun hseq => hvc (hs.vcom hseq)
  unfold State.nextSeq at hnext
  split at hnext <;> simp_all [Seq.isVcom]

/-- `next(SEQ)` reaches an alternate Vcom step under its condition only (R210). -/
theorem SequencerInv.altVoltageTable_of_nextSeq {s : State} (hs : SequencerInv s)
    (hnext : s.nextSeq.isVcomAlt = true) : s.profile.altVoltageTable = true := by
  by_contra halt
  have hseq : s.seq.isVcomAlt ≠ true := fun hseq => halt (hs.vcomAlt hseq)
  unfold State.nextSeq at hnext
  split at hnext <;> cases hvc : s.vc <;> simp_all [Seq.isVcomAlt]

theorem State.Continues.vc_eq {s t : State} (h : s.Continues t) (hmode : t.mode = s.mode) : t.vc = s.vc := by
  rw [State.vc, State.vc, h.profile, hmode]

theorem SequencerInv.of_moves {s t : State} (hs : SequencerInv s) (hcontinues : s.Continues t) (hmoves : s.Moves t) :
    SequencerInv t := by
  have hbegun : s.seq ≠ .idle → t.init ≠ false := fun hseq hinit => hseq (hs.begun (hcontinues.init ▸ hinit))
  cases hmoves with
  | stays why seq regen mode op =>
    have hvc := hcontinues.vc_eq mode
    constructor <;> simp only [seq, regen, mode, op, hvc, hcontinues.init, hcontinues.profile]
    exacts [hs.idle_regen, hs.open_iff, hs.regen_iff, hs.begun, hs.mode_ne, hs.vcom, hs.vcomAlt]
  | advances running inside seq regen mode op =>
    have hnext := nextSeq_ne_idle running inside
    have hop : s.inProgress ≠ none := fun hop => running (hs.open_iff.mpr hop)
    constructor <;> simp only [seq, regen, mode, op, hcontinues.vc_eq mode, hcontinues.profile]
    exacts [fun hidle => absurd hidle hnext, iff_of_false hnext hop, hs.regen_iff,
      fun hinit => absurd hinit (hbegun running), hs.mode_ne, hs.vc_of_nextSeq, hs.altVoltageTable_of_nextSeq]
  | starts isOpen begun seq mode op regen =>
    constructor <;> simp [seq, mode, op, regen, hcontinues.init, begun, Seq.isVcom, Seq.isVcomAlt]
  | handsOver last black seq regen mode op =>
    have hop : s.inProgress = some .regenerate := hs.regen_iff.mp (by simp [black])
    have hinit : t.init ≠ false := hbegun (by simp [last])
    constructor <;> simp [seq, regen, mode, op, hop, hinit, Seq.isVcom, Seq.isVcomAlt]
  | finishes last seq regen mode op =>
    constructor <;> simp [seq, regen, mode, op, hs.mode_ne, Seq.isVcom, Seq.isVcomAlt]

/-! ## The block before BEGIN -/

theorem frameBufferInv_reset : FrameBufferInv State.reset :=
  ⟨Config.params_wf, degenerate_wellFormed, Memory.wf_nil, fun _ hc => nomatch hc⟩

theorem sequencerInv_reset : SequencerInv State.reset := by
  constructor <;> simp [State.reset, Seq.isVcom, Seq.isVcomAlt]

theorem powerInv_reset : PowerInv State.reset :=
  ⟨(Bool.and_eq_true_iff.mp Config.params_wf).2, rfl⟩

/-! ## The obligations -/

/-- Settles O47: BEGIN resolves a well-formed profile over an empty `FB`, any other step leaves the profile and writes
inside `FB` at most. -/
theorem stepKeepsTheFrameBufferSound : Obligations.StepKeepsTheFrameBufferSound := by
  intro s t hs hstep
  rcases step_next hstep with hbegins | ⟨hcontinues, -⟩
  · exact hs.of_begins hbegins
  · exact hs.of_continues hcontinues

/-- Settles O48: by the ways a step moves the registers of the sequencer. -/
theorem stepKeepsTheSequencerSound : Obligations.StepKeepsTheSequencerSound := by
  intro s t hs hstep
  rcases step_next hstep with hbegins | ⟨hcontinues, hmoves⟩
  · exact hs.of_begins hbegins
  · exact hs.of_moves hcontinues hmoves

/-- Settles O44: of the ways a step moves the registers, a running cycle admits those the statement lists. -/
theorem seqOnlyAdvances : Obligations.SeqOnlyAdvances := by
  intro s t hclosed hstep
  rcases step_next hstep with ⟨hopen, -⟩ | ⟨-, hmoves⟩
  · exact absurd hopen hclosed
  · cases hmoves with
    | stays why seq regen mode op =>
      obtain ⟨hwait, htrace⟩ := why.resolve_left hclosed
      exact .inl ⟨hwait, seq, htrace⟩
    | advances running inside seq regen mode op =>
      exact .inr (.inl ⟨seq, .inl (seq ▸ code_lt_nextSeq running inside)⟩)
    | starts isOpen => exact absurd isOpen hclosed
    | handsOver last black seq regen mode op => exact .inr (.inr ⟨last, black, seq, regen⟩)
    | finishes last seq regen mode op =>
      have hnext : s.nextSeq = .idle := by rw [State.nextSeq, last]
      exact .inr (.inl ⟨seq.trans hnext.symm, .inr ⟨last, seq⟩⟩)

/-- Settles O52: a begun block refuses BEGIN, and every other step carries it on. -/
theorem profileIsImmutableOnceBegun : Obligations.ProfileIsImmutableOnceBegun := by
  intro s t hinit hstep
  rcases step_next hstep with ⟨-, hnotBegun, -⟩ | ⟨hcontinues, -⟩
  · rw [hinit] at hnotBegun
    cases hnotBegun
  · obtain ⟨events, htrace⟩ := hcontinues.trace
    exact ⟨hcontinues.profile, hcontinues.init.trans hinit, hcontinues.params, events, htrace.symm⟩

/-- Settles O7: a send step runs with the port closed. -/
theorem stepRunsThePanelCommandOfSeq : Obligations.StepRunsThePanelCommandOfSeq :=
  fun _ _ hport hcommand => step_of_command hport hcommand

/-- Settles O9: the second check of every operation, the port being open. -/
theorem initGatesEveryOperation : Obligations.InitGatesEveryOperation := by
  intro s hopen
  refine ⟨fun hinit i hhost hbegin => ?_, fun hinit code => exec_beginOp_of_begun hopen hinit code⟩
  obtain ⟨body, hbody⟩ := exec_eq_whenBegun hhost hbegin s
  rw [hbody, State.whenBegun_of_notBegun hopen hinit]

/-- Settles O10: the first check of every operation, and of a step for a word on the port. -/
theorem closedPortRefusesEveryOperation : Obligations.ClosedPortRefusesEveryOperation :=
  fun _ hclosed => ⟨fun _ hhost => exec_hostOp_of_closed hclosed hhost,
    fun _ hport => step_of_closed_of_hostPort hclosed hport⟩

/-- Settles O46: the parameters of Config are well formed, and `SEQ` is at IDLE over an empty `FB` and `TRACE`. -/
theorem resetMeetsTheInvariants : Obligations.ResetMeetsTheInvariants :=
  ⟨rfl, frameBufferInv_reset, sequencerInv_reset, powerInv_reset⟩

end Sys2Proof.Machine
end

section
/-! PROOFS. The memory (20_memory.md): a write repeated changes nothing more (R81), a running cycle is never blocked
outside a wait (R90), and no step of a sound block reaches outside `FB` (R79). -/

namespace Sys2Proof.Machine

/-! ## A write repeated -/

/-- Of a write, the cells whose addresses lie outside the written range are the old ones. -/
theorem Memory.filter_write (m : Memory) {a : Nat} {bytes : List Byte} {q : Nat → Bool}
    (h : ∀ x, a ≤ x → x < a + bytes.length → q x = false) :
    (m.write a bytes).filter (fun c => q c.1) =
      m.filter (fun c => q c.1 && decide (c.1 < a)) ++
        m.filter (fun c => q c.1 && decide (a + bytes.length ≤ c.1)) := by
  have hcells : (cellsFrom a bytes).filter (fun c => q c.1) = [] := by
    refine List.filter_eq_nil_iff.mpr fun c hc => ?_
    obtain ⟨hge, hlt, -⟩ := mem_cellsFrom hc
    simp [h c.1 hge hlt]
  rw [write, List.filter_append, List.filter_append, hcells, List.nil_append, List.filter_filter, List.filter_filter]

/-- A write done twice leaves the memory the first left. -/
theorem Memory.write_write_same (m : Memory) (a : Nat) (bytes : List Byte) :
    (m.write a bytes).write a bytes = m.write a bytes := by
  have hapart : ∀ x, (decide (x < a) && decide (a + bytes.length ≤ x)) = false := fun x => by simp; omega
  have hbelow : (m.write a bytes).filter (fun c => decide (c.1 < a)) = m.filter fun c => decide (c.1 < a) := by
    rw [filter_write (q := fun x => decide (x < a)) m fun x hx _ => by simpa using hx]
    simp [hapart]
  have habove : (m.write a bytes).filter (fun c => decide (a + bytes.length ≤ c.1)) =
      m.filter fun c => decide (a + bytes.length ≤ c.1) := by
    rw [filter_write (q := fun x => decide (a + bytes.length ≤ x)) m fun x _ hx => by simpa using hx]
    simp [Bool.and_comm, hapart]
  rw [write, hbelow, habove, write]

/-- Putting a bit to the value it has been put to changes nothing (R182). -/
theorem withBit_withBit (old : Byte) (bit : Nat) (r : Bool) :
    withBit (withBit old bit r) bit r = withBit old bit r := by
  cases r
  · exact (BitVec.and_assoc ..).trans (by rw [BitVec.and_self]; rfl)
  · exact (BitVec.or_assoc ..).trans (by rw [BitVec.or_self]; rfl)

/-! ## What CLEAR and SETPIXEL write -/

/-- The bytes CLEAR writes over the "next" plane (R180, R181). -/
def State.clearBytes (s : State) : Colour → List Byte
  | .white => s.solidPlane .white
  | .black => s.solidPlane .black
  | .grey => greyPlane s.profile

theorem State.clearWrite_eq_memWrite (s : State) (c : Colour) : s.clearWrite c = s.memWrite 0 (s.clearBytes c) := by
  cases c <;> rfl

/-- CLEAR's bytes depend on no byte of `FB` and no response. -/
theorem State.clearBytes_setFb_respond (s : State) (m : Memory) (r : Response) (c : Colour) :
    ((s.setFb m).respond r).clearBytes c = s.clearBytes c := by
  cases c <;> rfl

/-- CLEAR's bytes are one plane of them (R180, R181). -/
theorem State.length_clearBytes {s : State} (hp : s.profile.WellFormed) (c : Colour) :
    (s.clearBytes c).length = s.profile.planeSize := by
  cases c with
  | white | black => exact List.length_replicate
  | grey => exact (length_greyPlane s.profile).trans hp.plane.symm

/-- A CLEAR that answers has written its colour's bytes from `NEXT_BASE` on. -/
theorem execClear_eq_next {c : ColourArg} {s t : State} (h : execClear c s = .next t) :
    ∃ colour, colourOperand c = some colour ∧
      t = (s.setFb (s.fb.write 0 (s.clearBytes colour))).respond .done := by
  obtain ⟨-, -, colour, v, hcolour, hwrite, rfl⟩ := execClear_next h
  rw [State.clearWrite_eq_memWrite] at hwrite
  obtain ⟨-, rfl⟩ := State.memWrite_eq_some_iff.mp hwrite
  exact ⟨colour, hcolour, rfl⟩

theorem execClear_twice_fb {c : ColourArg} {s t u : State} (ht : execClear c s = .next t)
    (hu : execClear c t = .next u) : u.fb = t.fb := by
  obtain ⟨colour, hcolour, rfl⟩ := execClear_eq_next ht
  obtain ⟨colour', hcolour', rfl⟩ := execClear_eq_next hu
  obtain rfl : colour = colour' := Option.some.inj (hcolour.symm.trans hcolour')
  rw [State.clearBytes_setFb_respond]
  exact Memory.write_write_same s.fb 0 (s.clearBytes colour)

/-- The memory SETPIXEL's write of one bit leaves (R182). -/
def State.pixelWritten (s : State) (place : PixelPlace) (c : BinColour) : Memory :=
  s.fb.write place.off [withBit (s.fbByte place.off) place.bit (rawBit c s.invert)]

/-- SETPIXEL's write answers inside `FB`. -/
theorem State.putPixel_eq {s : State} {place : PixelPlace} (h : place.off < s.fbSize) (c : BinColour) :
    s.putPixel place c = some (s.setFb (s.pixelWritten place c)) := by
  unfold State.putPixel
  rw [State.nextBase_eq, Nat.zero_add, State.memReadByte_of_lt h]
  exact State.memWrite_of_le h

/-- A pixel written twice: the second write reads back the byte the first wrote. -/
theorem State.pixelWritten_twice (s : State) (place : PixelPlace) (c : BinColour) (r : Response) :
    ((s.setFb (s.pixelWritten place c)).respond r).pixelWritten place c = s.pixelWritten place c := by
  have hread : ((s.setFb (s.pixelWritten place c)).respond r).fbByte place.off =
      withBit (s.fbByte place.off) place.bit (rawBit c s.invert) :=
    (State.fbByte_setFb_write ..).trans (by simp)
  rw [State.pixelWritten, hread]
  exact (congrArg (fun b => Memory.write _ _ [b]) (withBit_withBit ..)).trans (Memory.write_write_same ..)

/-- A SETPIXEL that answers has left `FB` alone, the pixel lying nowhere, or has written its one bit. -/
theorem execSetPixel_eq_next {x y : Int} {c : ColourArg} {s t : State} (h : execSetPixel x y c s = .next t) :
    ∃ colour, colourOperand c = some colour ∧
      ((toBuffer s.profile x y s.orient = none ∧ t = s.respond .done) ∨
        ∃ place, toBuffer s.profile x y s.orient = some place ∧
          t = (s.setFb (s.pixelWritten place (reduceColour s.params colour x y place))).respond .done) := by
  obtain ⟨-, -, colour, hcolour, hout | ⟨place, v, hplace, hput, rfl⟩⟩ := execSetPixel_next h
  · exact ⟨colour, hcolour, .inl hout⟩
  · obtain ⟨-, rfl⟩ := putPixel_eq_some hput
    exact ⟨colour, hcolour, .inr ⟨place, hplace, rfl⟩⟩

theorem execSetPixel_twice_fb {x y : Int} {c : ColourArg} {s t u : State} (ht : execSetPixel x y c s = .next t)
    (hu : execSetPixel x y c t = .next u) : u.fb = t.fb := by
  obtain ⟨colour, hcolour, ht⟩ := execSetPixel_eq_next ht
  obtain ⟨colour', hcolour', ⟨-, rfl⟩ | ⟨place', hplace', rfl⟩⟩ := execSetPixel_eq_next hu
  · rfl
  · obtain rfl : colour = colour' := Option.some.inj (hcolour.symm.trans hcolour')
    obtain ⟨hplace, rfl⟩ | ⟨place, hplace, rfl⟩ := ht
    · exact absurd (hplace.symm.trans hplace') nofun
    · obtain rfl : place = place' := Option.some.inj (hplace.symm.trans hplace')
      exact s.pixelWritten_twice place _ .done

/-! ## The steps of a running cycle -/

/-- What a step of `SEQ` is: none, a send, the commit, the last wait or a wait before it (R44, R205 to R220). -/
theorem Seq.kinds (q : Seq) :
    q = .idle ∨ (∃ i, q.command = some i) ∨ q = .xferCommit ∨ q = .offWait ∨ (q.isWait = true ∧ q ≠ .offWait) := by
  cases q <;> simp [Seq.command, Seq.isWait]

theorem step_of_running {s : State} (hclosed : ¬ s.PortOpen) (hport : s.hostPort = none) : step s = cycleStep s := by
  rw [step_of_closed hclosed, closedStep, hport]

/-- A send step of a well-formed profile transmits and goes to `next(SEQ)` (R205 to R219). -/
theorem cycleStep_send {s : State} {i : Instr} (hp : s.profile.WellFormed) (h : s.seq.command = some i) :
    cycleStep s = .next (s.emit s.sendEvent).advance := by
  rw [cycleStep_of_command h, exec_command_eq h (frameSize_le_planeSize hp)]

/-! ## No access outside `FB` -/

section NoFault

variable {s : State} (f : Fault)

/-- A gated operation faults only where its body does. -/
theorem State.whenBegun_ne_fault {body : Result} (h : body ≠ .fault f) : s.whenBegun body ≠ .fault f := by
  obtain ⟨-, -, hgate⟩ | ⟨-, -, hgate⟩ | ⟨-, hgate⟩ := s.whenBegun_cases body <;> rw [hgate]
  · exact h
  · nofun
  · nofun

theorem execBegin_ne_fault (code : ScreenCode) : execBegin code s ≠ .fault f := by
  unfold execBegin State.whenOpen
  repeat' split
  all_goals nofun

/-- CLEAR's one plane of bytes fits the "next" plane. -/
theorem execClear_ne_fault (hp : s.profile.WellFormed) (c : ColourArg) : execClear c s ≠ .fault f := by
  refine State.whenBegun_ne_fault f ?_
  cases hcolour : colourOperand c with
  | none => nofun
  | some colour =>
    have hfits : 0 + (s.clearBytes colour).length ≤ s.fbSize := by
      rw [State.length_clearBytes hp, State.fbSize]
      omega
    simp only [State.clearWrite_eq_memWrite, State.memWrite_of_le hfits]
    nofun

/-- The byte of a pixel of the rectangle lies inside `FB` (R157). -/
theorem off_lt_fbSize (hp : s.profile.WellFormed) {x y : Int} {o : Orientation} {place : PixelPlace}
    (h : toBuffer s.profile x y o = some place) : place.off < s.fbSize := by
  have hoff := off_lt_of_toBuffer hp h
  rw [State.fbSize]
  omega

theorem execSetPixel_ne_fault (hp : s.profile.WellFormed) (x y : Int) (c : ColourArg) :
    execSetPixel x y c s ≠ .fault f := by
  refine State.whenBegun_ne_fault f ?_
  cases hcolour : colourOperand c with
  | none => nofun
  | some colour =>
    cases hplace : toBuffer s.profile x y s.orient with
    | none => nofun
    | some place =>
      simp only [State.putPixel_eq (off_lt_fbSize hp hplace)]
      nofun

theorem execGetPixel_ne_fault (hp : s.profile.WellFormed) (x y : Int) : execGetPixel x y s ≠ .fault f := by
  refine State.whenBegun_ne_fault f ?_
  cases hplace : toBuffer s.profile x y s.orient with
  | none => nofun
  | some place =>
    simp only [State.pixelColour, State.nextBase_eq, Nat.zero_add,
      State.memReadByte_of_lt (off_lt_fbSize hp hplace)]
    nofun

/-- No host operation of a well-formed profile faults. -/
theorem execHost_ne_fault (hp : s.profile.WellFormed) {i : Instr} (hhost : i.isHostOp = true) :
    exec i s ≠ .fault f := by
  cases i with
  | beginOp code => exact execBegin_ne_fault f code
  | clear c => exact execClear_ne_fault f hp c
  | setPixel x y c => exact execSetPixel_ne_fault f hp x y c
  | getPixel x y => exact execGetPixel_ne_fault f hp x y
  | setOrient o => exact State.whenBegun_ne_fault f (by cases orientOperand o <;> nofun)
  | setInvert | flush | flushMode => exact State.whenBegun_ne_fault f nofun
  | regenerate => exact State.whenBegun_ne_fault f (by rw [State.clearSolid_eq]; nofun)
  | _ => cases hhost

theorem hostStep_ne_fault (hp : s.profile.WellFormed) : hostStep s ≠ .fault f := by
  unfold hostStep runHostWord
  cases htake : s.takeHostWord with
  | none => nofun
  | some taken =>
    obtain ⟨w, u⟩ := taken
    have hu : u.profile.WellFormed := by
      rw [takeHostWord_eq_some htake]
      exact hp
    cases hdecode : decodeHostWord w with
    | none => simp only [hdecode]; nofun
    | some i => simpa only [hdecode] using execHost_ne_fault f hu (isHostOp_of_decodeHostWord hdecode)

theorem waitStep_ne_fault : waitStep s ≠ .fault f := by
  unfold waitStep
  split <;> nofun

theorem offWaitStep_ne_fault : offWaitStep s ≠ .fault f := by
  unfold offWaitStep
  rw [endCycle_eq]
  repeat' split
  all_goals nofun

/-- No step of a cycle faults under a well-formed profile: sends and the commit stay inside the planes. -/
theorem cycleStep_ne_fault (hp : s.profile.WellFormed) : cycleStep s ≠ .fault f := by
  obtain hidle | ⟨i, hcommand⟩ | hcommit | hlast | ⟨hwait, hinside⟩ := s.seq.kinds
  · unfold cycleStep
    rw [hidle]
    nofun
  · rw [cycleStep_send hp hcommand]
    nofun
  · rw [cycleStep_of_commit hcommit, commitStep_eq]
    nofun
  · rw [cycleStep_of_offWait hlast]
    exact offWaitStep_ne_fault f
  · rw [cycleStep_of_wait hwait hinside]
    exact waitStep_ne_fault f

end NoFault

/-! ## The obligations -/

/-- Settles O29: each operation writes what depends on no byte of `FB` but, for SETPIXEL, the seven bits it keeps. -/
theorem clearAndSetPixelAreIdempotent : Obligations.ClearAndSetPixelAreIdempotent :=
  fun _ _ _ => ⟨fun _ => execClear_twice_fb, fun _ _ _ => execSetPixel_twice_fb⟩

/-- Settles O45: a step of a cycle that is not a wait is a send or the commit, and both go to `next(SEQ)`. -/
theorem nonWaitStepsAreAlwaysEnabled : Obligations.NonWaitStepsAreAlwaysEnabled := by
  intro s hs hport hrunning hnotWait
  rw [step_of_running (fun hopen => hrunning hopen.1) hport]
  obtain hidle | ⟨i, hcommand⟩ | hcommit | hlast | ⟨hwait, -⟩ := s.seq.kinds
  · exact absurd hidle hrunning
  · exact ⟨_, cycleStep_send hs.profile_wf hcommand, rfl⟩
  · exact ⟨_, (cycleStep_of_commit hcommit).trans (commitStep_eq s), rfl⟩
  · rw [hlast] at hnotWait
    cases hnotWait
  · rw [hwait] at hnotWait
    cases hnotWait

/-- Settles O50: the planes lie inside `FB` under a well-formed profile, so only refusals stop a step. -/
theorem soundStatesNeverFault : Obligations.SoundStatesNeverFault := by
  intro s f hs
  by_cases hopen : s.PortOpen
  · rw [step_of_open hopen]
    exact hostStep_ne_fault f hs.profile_wf
  · cases hport : s.hostPort with
    | some w =>
      rw [step_of_closed_of_hostPort hopen hport]
      nofun
    | none =>
      rw [step_of_running hopen hport]
      exact cycleStep_ne_fault f hs.profile_wf

end Sys2Proof.Machine
end

section
/-! PROOFS. The encodings (30_encoding.md): what is encoded reads back, a host word that decodes is what its operation
encodes to, a word of no row is refused, and what a send step transmits is the encoding of its command. -/

namespace Sys2Proof

/-! ## The operands a word can spell -/

theorem Instr.wellFormed_setPixel_iff {x y : Int} {c : ColourArg} :
    (Instr.setPixel x y c).wellFormed = true ↔ CoordEncodable x ∧ CoordEncodable y := by
  simp only [Instr.wellFormed, Bool.and_eq_true, decide_eq_true_eq]

theorem Instr.wellFormed_getPixel_iff {x y : Int} :
    (Instr.getPixel x y).wellFormed = true ↔ CoordEncodable x ∧ CoordEncodable y := by
  simp only [Instr.wellFormed, Bool.and_eq_true, decide_eq_true_eq]

theorem Instr.wellFormed_setOrient_iff {o : Int} : (Instr.setOrient o).wellFormed = true ↔ OrientEncodable o :=
  decide_eq_true_iff

theorem coordEncodable_toNat (v : BitVec coordBits) : CoordEncodable (v.toNat : Int) :=
  ⟨Int.natCast_nonneg _, by exact_mod_cast v.isLt⟩

theorem orientEncodable_toNat (v : BitVec 2) : OrientEncodable (v.toNat : Int) :=
  ⟨Int.natCast_nonneg _, by exact_mod_cast v.isLt⟩

theorem ofInt_toNat {n : Nat} (v : BitVec n) : BitVec.ofInt n (v.toNat : Int) = v := by
  rw [BitVec.ofInt_natCast, BitVec.ofNat_toNat, BitVec.setWidth_eq]

theorem toNat_ofInt_orient {o : Int} (h : OrientEncodable o) : ((BitVec.ofInt 2 o).toNat : Int) = o := by
  obtain ⟨hlo, hhi⟩ := h
  rw [BitVec.toNat_ofInt]
  omega

theorem ColourArg.code_ofCode : ∀ b : BitVec 2, (ColourArg.ofCode b).code = b := by decide

theorem UpdateMode.code_ofCode : ∀ b : BitVec 2, (UpdateMode.ofCode b).code = b := by decide

/-! ## Decoding an encoding -/

section DecodeEncode

variable {powerOff : Byte} {frameSize : Nat}

/-- The word of a host operation decodes to what its row of the operation map reads from the word (R103). -/
theorem decode_encode_of_row {i : Instr} {w : HostWord} {k : Nat} (hspells : Laws.SpellsARow.Statement i)
    (hrow : Laws.SpellsARow.row i = some k) (hk : k < hostRows.length)
    (hword : encode powerOff frameSize i = .host w) (hoperands : hostRows[k].operands w = i) :
    decode powerOff frameSize (encode powerOff frameSize i) = some i := by
  have honly := hspells powerOff frameSize w hword
  rw [hrow] at honly
  rw [hword]
  exact (Laws.SpellsARow.decodeHostWord_of_spells hk honly).trans (congrArg some hoperands)

theorem decode_encode_hostOp {i : Instr} (hhost : i.isHostOp = true) (hwf : i.wellFormed = true) :
    decode powerOff frameSize (encode powerOff frameSize i) = some i := by
  cases i with
  | beginOp code =>
    refine decode_encode_of_row (Laws.SpellsARow.beginOp code) rfl (by decide) rfl ?_
    exact congrArg Instr.beginOp (fieldCode_formatB _ code)
  | clear c =>
    refine decode_encode_of_row (Laws.SpellsARow.clear c) rfl (by decide) rfl ?_
    change Instr.clear (.ofCode (fieldA (formatA _ c.code))) = _
    rw [fieldA_formatA, ColourArg.ofCode_code]
  | setPixel x y c =>
    obtain ⟨hx, hy⟩ := Instr.wellFormed_setPixel_iff.mp hwf
    refine decode_encode_of_row (Laws.SpellsARow.setPixel x y c) rfl (by decide) rfl ?_
    change Instr.setPixel (fieldX (formatP _ _ x y)) (fieldY (formatP _ _ x y))
      (.ofCode (fieldA (formatP _ c.code x y))) = _
    rw [fieldX_formatP _ _ _ hx, fieldY_formatP _ _ _ hy, fieldA_formatP, ColourArg.ofCode_code]
  | getPixel x y =>
    obtain ⟨hx, hy⟩ := Instr.wellFormed_getPixel_iff.mp hwf
    refine decode_encode_of_row (Laws.SpellsARow.getPixel x y) rfl (by decide) rfl ?_
    change Instr.getPixel (fieldX (formatP _ _ x y)) (fieldY (formatP _ _ x y)) = _
    rw [fieldX_formatP _ _ _ hx, fieldY_formatP _ _ _ hy]
  | setOrient o =>
    refine decode_encode_of_row (Laws.SpellsARow.setOrient o) rfl (by decide) rfl ?_
    change Instr.setOrient ((fieldA (formatA _ (BitVec.ofInt 2 o))).toNat : Int) = _
    rw [fieldA_formatA, toNat_ofInt_orient (Instr.wellFormed_setOrient_iff.mp hwf)]
  | setInvert flag =>
    exact decode_encode_of_row (Laws.SpellsARow.setInvert flag) rfl (by decide) rfl (by cases flag <;> rfl)
  | flush => exact decode_encode_of_row Laws.SpellsARow.flush rfl (by decide) rfl rfl
  | flushMode m =>
    refine decode_encode_of_row (Laws.SpellsARow.flushMode m) rfl (by decide) rfl ?_
    change Instr.flushMode (.ofCode (fieldA (formatA _ m.code))) = _
    rw [fieldA_formatA, UpdateMode.ofCode_code]
  | regenerate => exact decode_encode_of_row Laws.SpellsARow.regenerate rfl (by decide) rfl rfl
  | _ => cases hhost

/-- The ten transmissions are told apart by index, payload length and code (R113). -/
theorem decode_encode_panel {i : Instr} (hpanel : i.isHostOp = false) (hon : powerOff ≠ 0x04#8)
    (hrefresh : powerOff ≠ 0x12#8) : decode powerOff frameSize (encode powerOff frameSize i) = some i := by
  cases i with
  | pSoftReset | pPsr | pTempInput | pTempActivate | pVcom | pPowerOn | pRefresh => rfl
  | pDataPrev | pDataNext => simp [encode, decode, decodeIdx]
  | pPowerOff => simp [encode, decode, decodeCmd8, hon, hrefresh]
  | _ => cases hpanel

theorem decode_encode {i : Instr} (hon : powerOff ≠ 0x04#8) (hrefresh : powerOff ≠ 0x12#8)
    (hwf : i.wellFormed = true) : decode powerOff frameSize (encode powerOff frameSize i) = some i := by
  cases hhost : i.isHostOp with
  | true => exact decode_encode_hostOp hhost hwf
  | false => exact decode_encode_panel hhost hon hrefresh

end DecodeEncode

/-! ## Encoding what a word decodes to -/

/-- The row asks for the value `v` in the `len` bits from `lo` on: its mask keeps them all (R103). -/
abbrev HostRow.Fixes (r : HostRow) (lo len : Nat) (v : BitVec len) : Prop :=
  r.mask.extractLsb' lo len = BitVec.allOnes len ∧ r.pattern.extractLsb' lo len = v

/-- The row is one of format A: it fixes the operation code and asks for zeros below the argument (R101, R104). -/
abbrev HostRow.FixesFormatA (r : HostRow) (op : BitVec 4) : Prop :=
  r.Fixes 28 4 op ∧ r.Fixes 13 13 0#13 ∧ r.Fixes 0 13 0#13

theorem HostRow.extractLsb'_of_fixes {r : HostRow} {w : HostWord} {lo len : Nat} {v : BitVec len}
    (hspells : r.spells w = true) (hfixes : r.Fixes lo len v) : w.extractLsb' lo len = v := by
  obtain ⟨hmask, hpattern⟩ := hfixes
  have hand : w &&& r.mask = r.pattern := eq_of_beq hspells
  rw [← hpattern, ← hand, BitVec.extractLsb'_and, hmask, BitVec.and_allOnes]

/-- A word is its four fields in a row (R101). -/
theorem append_fields (w : HostWord) :
    w.extractLsb' 28 4 ++ fieldA w ++ w.extractLsb' 13 13 ++ w.extractLsb' 0 13 = w := by
  rw [fieldA, BitVec.extractLsb'_append_extractLsb'_eq_extractLsb' (show 28 = 26 + 2 from rfl),
    BitVec.extractLsb'_append_extractLsb'_eq_extractLsb' (show 26 = 13 + 13 from rfl),
    BitVec.extractLsb'_append_extractLsb'_eq_extractLsb' (show 13 = 0 + 13 from rfl)]
  exact BitVec.extractLsb'_eq_self

theorem append_code_fields (w : HostWord) :
    w.extractLsb' 28 4 ++ w.extractLsb' 24 4 ++ fieldCode w = w := by
  rw [fieldCode, BitVec.extractLsb'_append_extractLsb'_eq_extractLsb' (show 28 = 24 + 4 from rfl),
    BitVec.extractLsb'_append_extractLsb'_eq_extractLsb' (show 24 = 0 + 24 from rfl)]
  exact BitVec.extractLsb'_eq_self

section FormatsOfAWord

variable {r : HostRow} {w : HostWord} {op : BitVec 4} {a : BitVec 2}

theorem formatB_eq_of_spells (hspells : r.spells w = true) (hop : r.Fixes 28 4 op) (hzero : r.Fixes 24 4 0#4) :
    formatB op (fieldCode w) = w := by
  have hw := append_code_fields w
  rwa [r.extractLsb'_of_fixes hspells hop, r.extractLsb'_of_fixes hspells hzero] at hw

theorem formatP_eq_of_spells (hspells : r.spells w = true) (hop : r.Fixes 28 4 op) (ha : fieldA w = a) :
    formatP op a (fieldX w) (fieldY w) = w := by
  have hw := append_fields w
  rw [r.extractLsb'_of_fixes hspells hop, ha] at hw
  rwa [formatP, fieldX, fieldY, ofInt_toNat, ofInt_toNat]

theorem formatA_eq_of_spells (hspells : r.spells w = true) (hfixes : r.FixesFormatA op) (ha : fieldA w = a) :
    formatA op a = w := by
  obtain ⟨hop, hx, hy⟩ := hfixes
  have hw := append_fields w
  rwa [r.extractLsb'_of_fixes hspells hop, r.extractLsb'_of_fixes hspells hx, r.extractLsb'_of_fixes hspells hy,
    ha] at hw

theorem ofBool_fieldFlag (w : HostWord) : BitVec.ofBool (fieldFlag w) = w.extractLsb' 26 1 := by
  refine BitVec.eq_of_getLsbD_eq fun k hk => ?_
  obtain rfl : k = 0 := by omega
  simp [fieldFlag]

/-- SETINVERT's argument is its flag, bit 27 being 0 (R104). -/
theorem fieldA_eq_fieldFlag_of_spells (hspells : r.spells w = true) (hzero : r.Fixes 27 1 0#1) :
    fieldA w = 0#1 ++ BitVec.ofBool (fieldFlag w) := by
  rw [ofBool_fieldFlag, ← r.extractLsb'_of_fixes hspells hzero]
  exact (BitVec.extractLsb'_append_extractLsb'_eq_extractLsb' (show 27 = 26 + 1 from rfl)).symm

end FormatsOfAWord

theorem encode_operands_of_spells {r : HostRow} {w : HostWord} (hrow : r ∈ hostRows) (hspells : r.spells w = true)
    (powerOff : Byte) (frameSize : Nat) : encode powerOff frameSize (r.operands w) = .host w := by
  simp only [hostRows, List.mem_cons, List.not_mem_nil, or_false] at hrow
  obtain rfl | rfl | rfl | rfl | rfl | rfl | rfl | rfl | rfl := hrow
  all_goals refine congrArg Wire.host ?_
  · exact formatB_eq_of_spells hspells (by decide) (by decide)
  · exact formatA_eq_of_spells hspells (by decide) (ColourArg.code_ofCode _).symm
  · exact formatP_eq_of_spells hspells (by decide) (ColourArg.code_ofCode _).symm
  · exact formatP_eq_of_spells hspells (by decide) (HostRow.extractLsb'_of_fixes hspells (by decide))
  · exact formatA_eq_of_spells hspells (by decide) (ofInt_toNat _).symm
  · exact formatA_eq_of_spells hspells (by decide) (fieldA_eq_fieldFlag_of_spells hspells (by decide))
  · exact formatA_eq_of_spells hspells (by decide) (HostRow.extractLsb'_of_fixes hspells (by decide))
  · exact formatA_eq_of_spells hspells (by decide) (UpdateMode.code_ofCode _).symm
  · exact formatA_eq_of_spells hspells (by decide) (HostRow.extractLsb'_of_fixes hspells (by decide))

/-- What a row reads from any word fits the operand ranges of R102 and R107. -/
theorem wellFormed_operands {r : HostRow} (hrow : r ∈ hostRows) (w : HostWord) :
    (r.operands w).wellFormed = true := by
  simp only [hostRows, List.mem_cons, List.not_mem_nil, or_false] at hrow
  obtain rfl | rfl | rfl | rfl | rfl | rfl | rfl | rfl | rfl := hrow
  · rfl
  · rfl
  · exact Instr.wellFormed_setPixel_iff.mpr ⟨coordEncodable_toNat _, coordEncodable_toNat _⟩
  · exact Instr.wellFormed_getPixel_iff.mpr ⟨coordEncodable_toNat _, coordEncodable_toNat _⟩
  · exact Instr.wellFormed_setOrient_iff.mpr (orientEncodable_toNat _)
  all_goals rfl

/-- A word that decodes spells a row, and decodes to what the row reads from it (R103). -/
theorem exists_row_of_decodeHostWord {w : HostWord} {i : Instr} (h : decodeHostWord w = some i) :
    ∃ r ∈ hostRows, r.spells w = true ∧ r.operands w = i := by
  obtain ⟨r, hfind, hoperands⟩ := Option.map_eq_some_iff.mp h
  exact ⟨r, List.mem_of_find?_eq_some hfind, List.find?_some (p := fun r : HostRow => r.spells w) hfind, hoperands⟩

/-! ## Words of no row -/

theorem decodeHostWord_eq_none {w : HostWord} (h : ∀ r ∈ hostRows, w &&& r.mask ≠ r.pattern) :
    decodeHostWord w = none := by
  have hfind : hostRows.find? (fun r => r.spells w) = none :=
    List.find?_eq_none.mpr fun r hr hspells => h r hr (eq_of_beq hspells)
  rw [decodeHostWord, hfind]
  rfl

/-- Every row fixes its operation code, one of 0x1 to 0x9 (R103). -/
theorem hostRows_fix_operationCode : ∀ r ∈ hostRows,
    r.Fixes 28 4 (r.pattern.extractLsb' 28 4) ∧ 1 ≤ (r.pattern.extractLsb' 28 4).toNat ∧
      (r.pattern.extractLsb' 28 4).toNat ≤ 9 := by decide

theorem toNat_operationCode (w : HostWord) : (w.extractLsb' 28 4).toNat = w.toNat / 2 ^ 28 := by
  have hlt := w.isLt
  rw [BitVec.extractLsb'_toNat, Nat.shiftRight_eq_div_pow]
  omega

/-- The operation code of a word that spells a row is one of 0x1 to 0x9 (R103). -/
theorem operationCode_of_spells {r : HostRow} {w : HostWord} (hrow : r ∈ hostRows) (hspells : r.spells w = true) :
    1 ≤ w.toNat / 2 ^ 28 ∧ w.toNat / 2 ^ 28 ≤ 9 := by
  obtain ⟨hfixes, hrange⟩ := hostRows_fix_operationCode r hrow
  rwa [← r.extractLsb'_of_fixes hspells hfixes, toNat_operationCode] at hrange

end Sys2Proof

namespace Sys2Proof.Machine

/-! ## The step that takes an illegal word -/

theorem step_of_illegalHostWord {s t : State} {w : HostWord} (hopen : s.PortOpen)
    (htake : s.takeHostWord = some (w, t)) (hdecode : decodeHostWord w = none) :
    step s = .refused (.illegalHostWord w) := by
  rw [step_of_open hopen]
  unfold hostStep runHostWord
  simp only [htake, hdecode]

/-! ## What a send step transmits -/

/-- An event of the panel port as the port's decoder sees it: index and number of payload bytes, or code (R110). -/
def Event.wire : Event → Option Wire
  | .idx i payload => some (.idx i payload.length)
  | .cmd c => some (.cmd8 c)
  | .wait => none
  | .tempChk _ _ => none
  | .report => none
  | .delay => none

theorem State.commandOf_eq_decode {s : State} {e : Event} {u : Wire} (h : e.wire = some u) :
    s.commandOf e = decode s.params.cmdPowerOff s.profile.frameSize u := by
  cases e <;> cases h <;> rfl

/-- A send step transmits the encoding of its command (R112, R121). -/
theorem State.wire_sendEvent {s : State} {i : Instr} (h : s.seq.command = some i) :
    s.sendEvent.wire = some (encode s.params.cmdPowerOff s.profile.frameSize i) := by
  unfold State.sendEvent
  cases hseq : s.seq <;> rw [hseq] at h <;> cases h <;> simp [Event.wire, encode]

theorem powerOffWf_iff {params : Params} :
    params.powerOffWf = true ↔ params.cmdPowerOff ≠ 0x04#8 ∧ params.cmdPowerOff ≠ 0x12#8 := by
  simp [Params.powerOffWf]

/-- The transmission of a send step reads back as the step's command. -/
theorem State.commandOf_sendEvent {s : State} {i : Instr} (hpower : s.params.powerOffWf = true)
    (h : s.seq.command = some i) : s.commandOf s.sendEvent = some i := by
  obtain ⟨hon, hrefresh⟩ := powerOffWf_iff.mp hpower
  rw [State.commandOf_eq_decode (State.wire_sendEvent h)]
  exact decode_encode_panel (isHostOp_of_command h) hon hrefresh

/-! ## Illegal operands -/

theorem orientOperand_eq_none {o : Int} (h : o < 0 ∨ 3 < o) : orientOperand o = none := by
  unfold orientOperand
  repeat rw [if_neg (by omega)]

theorem execSetOrient_of_illegal {s : State} (hopen : s.PortOpen) (hinit : s.init = true) {o : Int}
    (h : o < 0 ∨ 3 < o) : execSetOrient o s = .refused .illegalOperand := by
  rw [execSetOrient, State.whenBegun_of_begun hopen hinit, orientOperand_eq_none h]

/-! ## Panel commands away from their steps -/

theorem State.transferFrom_away {s : State} {site : Seq} (h : s.seq ≠ site) (index : Byte) (base : Nat) :
    s.transferFrom site index base = .refused .outOfSequence := if_neg h

theorem exec_panel_of_away {s : State} {i : Instr} (hpanel : i.isHostOp = false) (haway : s.seq.command ≠ some i) :
    exec i s = .refused .outOfSequence := by
  have hsite : ∀ {q : Seq}, q.command = some i → s.seq ≠ q := fun hq hseq => haway (hseq ▸ hq)
  cases i with
  | pSoftReset | pTempInput | pTempActivate | pPsr | pPowerOn | pRefresh | pPowerOff =>
    exact State.sendFrom_away (hsite rfl) _
  | pDataPrev | pDataNext => exact State.transferFrom_away (hsite rfl) _ _
  | pVcom =>
    change execPVcom s = _
    rw [execPVcom, if_neg (hsite rfl), if_neg (hsite rfl), State.sendFrom_away (hsite rfl)]
  | _ => cases hpanel

/-! ## The obligations -/

/-- Settles O2: a host operation spells its own row alone and the row reads its operands; the panel port tells the ten
transmissions apart. -/
theorem decodeOfEncodeIsTheInstruction : Obligations.DecodeOfEncodeIsTheInstruction :=
  fun _ _ _ hon hrefresh hwf => decode_encode hon hrefresh hwf

/-- Settles O3: the bits a row's mask keeps are its pattern's, the others are the operands. -/
theorem encodeOfDecodeIsTheWord : Obligations.EncodeOfDecodeIsTheWord := by
  intro w i hdecode
  obtain ⟨r, hrow, hspells, rfl⟩ := exists_row_of_decodeHostWord hdecode
  exact ⟨wellFormed_operands hrow w, isHostOp_of_decodeHostWord hdecode, encode_operands_of_spells hrow hspells⟩

/-- Settles O4: a word of no row does not decode, and every row has an operation code of 0x1 to 0x9. -/
theorem reservedHostWordsAreRefused : Obligations.ReservedHostWordsAreRefused := by
  refine ⟨fun s w hopen hnoRow => ?_, fun w hcode r hrow hmatch => ?_⟩
  · have hdecode := decodeHostWord_eq_none hnoRow
    exact ⟨fun rest hport hqueue => step_of_illegalHostWord hopen (takeHostWord_of_hostQueue hport hqueue) hdecode,
      fun hport => step_of_illegalHostWord hopen (takeHostWord_of_hostPort hport) hdecode⟩
  · have hrange := operationCode_of_spells hrow (beq_iff_eq.mpr hmatch)
    omega

/-- Settles O5: the event of a send step is the encoding of its command, which decodes to it. -/
theorem transmissionsReadBackAsTheirCommand : Obligations.TransmissionsReadBackAsTheirCommand := by
  intro s i hp hpower hcommand
  exact ⟨_, s.sendEvent, exec_command_eq hcommand (frameSize_le_planeSize hp), rfl,
    State.commandOf_sendEvent hpower hcommand⟩

/-- Settles O1: each listed instruction is well formed and encodes to its word, which then decodes to it. -/
theorem workedEncodingsReadAndWrite : Obligations.WorkedEncodingsReadAndWrite := by
  intro pair hpair
  have hlisted : encode 0x02#8 0 pair.1 = .host pair.2 ∧ pair.1.wellFormed = true := by
    revert pair
    decide
  obtain ⟨hencode, hwf⟩ := hlisted
  have hdecode := decode_encode (powerOff := 0x02#8) (frameSize := 0) (by decide) (by decide) hwf
  rw [hencode] at hdecode
  exact ⟨hencode, hdecode⟩

/-- Settles O11: the operand is checked right after the two gates, before any coordinate is. -/
theorem illegalOperandsAreRefused : Obligations.IllegalOperandsAreRefused := by
  intro s ha
  obtain ⟨hopen, hinit⟩ := ha
  exact ⟨State.whenBegun_of_begun hopen hinit _, fun _ _ => State.whenBegun_of_begun hopen hinit _,
    fun _ ho => execSetOrient_of_illegal hopen hinit ho⟩

/-- Settles O40: a command's sites are the steps `Seq.command` names. -/
theorem panelCommandsAwayFromTheirStepAreRefused : Obligations.PanelCommandsAwayFromTheirStepAreRefused :=
  fun _ _ hpanel haway => exec_panel_of_away hpanel haway

end Sys2Proof.Machine
end

section
/-! PROOFS. The resolver (40_profile_resolver.md): the check of the parameters, the profile a code resolves to, what
BEGIN leaves, and the profile of an unknown code, which has no pixel and no byte. -/

namespace Sys2Proof.Machine

/-! ## The check of the parameters -/

/-- A row is refused exactly when it breaks one of the conditions of R133. -/
theorem ProfileRow.wf_eq_false_iff {r : ProfileRow} :
    r.wf = false ↔ r.sizeV = 0 ∨ 2 ^ 16 ≤ r.sizeV ∨ r.sizeH = 0 ∨ 2 ^ 16 ≤ r.sizeH ∨ r.sizeH % 8 ≠ 0 ∨
      (r.dualHalf = true ∧ r.sizeV * (r.sizeH / 8) % 2 ≠ 0) := by
  rw [← Bool.not_eq_true, ProfileRow.wf_iff]
  simp only [not_and_or, Classical.not_imp, not_lt, Nat.le_zero, ne_eq]

theorem tableWf_iff {params : Params} :
    params.tableWf = true ↔ ∀ code r, (code, r) ∈ params.profileTable → r.wf = true := by
  rw [Params.tableWf, List.all_eq_true, Prod.forall]

theorem powerOffWf_eq_false_iff {params : Params} :
    params.powerOffWf = false ↔ params.cmdPowerOff = 0x04#8 ∨ params.cmdPowerOff = 0x12#8 := by
  rw [← Bool.not_eq_true, powerOffWf_iff]
  simp only [not_and_or, not_not, ne_eq]

/-- The table's refusal is the one reported, whatever the Power-Off code is (log 4). -/
theorem instantiate_of_illFormedTable {params : Params} (htable : params.tableWf = false) :
    instantiate params = .refused .illFormedTable := by
  rw [instantiate, htable]
  rfl

theorem instantiate_of_ambiguousPowerOff {params : Params} (htable : params.tableWf = true)
    (hpower : params.powerOffWf = false) : instantiate params = .refused .ambiguousPowerOff := by
  rw [instantiate, htable, hpower]
  rfl

theorem instantiate_of_wf {params : Params} (htable : params.tableWf = true) (hpower : params.powerOffWf = true) :
    instantiate params = .next { State.reset with params := params } := by
  rw [instantiate, htable, hpower]
  rfl

/-! ## The row under a code -/

theorem tableRow_of_first {params : Params} {code : ScreenCode} {r : ProfileRow}
    {before after : List (ScreenCode × ProfileRow)} (htable : params.profileTable = before ++ (code, r) :: after)
    (hfirst : ∀ entry ∈ before, entry.1 ≠ code) : tableRow params code = some r := by
  have hfind : params.profileTable.find? (fun entry => entry.1 == code) = some (code, r) :=
    List.find?_eq_some_iff_append.mpr
      ⟨beq_self_eq_true code, before, after, htable, fun entry hentry => by simp [hfirst entry hentry]⟩
  rw [tableRow, hfind, Option.map_some]

theorem tableRow_of_not_listed {params : Params} {code : ScreenCode} (h : ∀ r, (code, r) ∉ params.profileTable) :
    tableRow params code = none := by
  rw [tableRow, Option.map_eq_none_iff, List.find?_eq_none]
  rintro ⟨code', r⟩ hentry hcode
  exact h r (beq_iff_eq.mp hcode ▸ hentry)

theorem resolve_of_tableRow {params : Params} {code : ScreenCode} {r : ProfileRow}
    (h : tableRow params code = some r) : resolve params code = rowProfile r := by
  rw [resolve, h]

theorem resolve_of_unknown {params : Params} {code : ScreenCode} (h : tableRow params code = none) :
    resolve params code = Profile.degenerate := by
  rw [resolve, h]

/-! ## BEGIN -/

theorem exec_beginOp_of_notBegun {s : State} (hopen : s.PortOpen) (hinit : s.init = false) (code : ScreenCode) :
    exec (.beginOp code) s = .next ((s.begun code).respond .done) := by
  change s.whenOpen _ = _
  rw [State.whenOpen_of_open hopen, hinit]
  rfl

/-- After BEGIN every address reads the zero fill (R48). -/
theorem State.fbByte_begun_respond (s : State) (code : ScreenCode) (r : Response) (a : Nat) :
    ((s.begun code).respond r).fbByte a = 0x00#8 :=
  Memory.byteAt_nil a

/-! ## Pixels outside the rectangle, and CLEAR of a sound profile -/

section Accepting

variable {s : State} {c : ColourArg} {colour : Colour}

theorem exists_colourOperand (h : c ≠ .reserved) : ∃ colour, colourOperand c = some colour := by
  cases c with
  | reserved => exact absurd rfl h
  | white | black | grey => exact ⟨_, rfl⟩

theorem State.whenBegun_of_accepting (ha : s.Accepting) (body : Result) : s.whenBegun body = body :=
  State.whenBegun_of_begun ha.1 ha.2 body

theorem exec_setPixel_of_nowhere (ha : s.Accepting) (hcolour : colourOperand c = some colour) {x y : Int}
    (hplace : toBuffer s.profile x y s.orient = none) : exec (.setPixel x y c) s = .next (s.respond .done) := by
  change s.whenBegun _ = _
  rw [State.whenBegun_of_accepting ha, hcolour, hplace]

theorem exec_getPixel_of_nowhere (ha : s.Accepting) {x y : Int} (hplace : toBuffer s.profile x y s.orient = none) :
    exec (.getPixel x y) s = .next (s.respond (.colour .white)) := by
  change s.whenBegun _ = _
  rw [State.whenBegun_of_accepting ha, hplace]

/-- CLEAR writes its plane of bytes from `NEXT_BASE` on (R180, R181). -/
theorem exec_clear_of_wellFormed (ha : s.Accepting) (hp : s.profile.WellFormed)
    (hcolour : colourOperand c = some colour) :
    exec (.clear c) s = .next ((s.setFb (s.fb.write 0 (s.clearBytes colour))).respond .done) := by
  have hfits : 0 + (s.clearBytes colour).length ≤ s.fbSize := by
    rw [State.length_clearBytes hp, State.fbSize]
    omega
  change s.whenBegun _ = _
  rw [State.whenBegun_of_accepting ha, hcolour]
  simp only [State.clearWrite_eq_memWrite, State.memWrite_of_le hfits]

end Accepting

/-! ## The degenerate profile -/

/-- The rectangle of the degenerate profile is empty (R134). -/
theorem toBuffer_degenerate (x y : Int) (o : Orientation) : toBuffer Profile.degenerate x y o = none := by
  refine toBuffer_of_not_inRect ?_
  rintro ⟨⟨hleft, hright⟩, -⟩
  have hzero : rectWidth Profile.degenerate o = 0 := by cases o <;> rfl
  omega

/-- A CLEAR of planes without a byte writes none (R134). -/
theorem State.fbByte_clear_of_degenerate {s : State} (h : s.profile = Profile.degenerate) (colour : Colour)
    (a : Nat) : (s.setFb (s.fb.write 0 (s.clearBytes colour))).fbByte a = s.fbByte a := by
  have hempty : (s.clearBytes colour).length = 0 := by
    rw [State.length_clearBytes (h ▸ degenerate_wellFormed), h]
    rfl
  rw [State.fbByte_setFb_write, if_neg (by omega)]

/-- A transfer of no byte is empty (R230). -/
theorem State.fbBytes_zero (s : State) (a : Nat) : s.fbBytes a 0 = [] := rfl

/-! ## The obligations -/

/-- Settles O12: the two checks of `instantiate` fail exactly under the conditions the statement negates. -/
theorem instantiationChecksTheParameters : Obligations.InstantiationChecksTheParameters := by
  intro params
  constructor
  · rintro ⟨code, r, hentry, hbroken⟩
    refine instantiate_of_illFormedTable (Bool.eq_false_iff.mpr fun htable => ?_)
    exact Bool.eq_false_iff.mp (ProfileRow.wf_eq_false_iff.mpr hbroken) (tableWf_iff.mp htable code r hentry)
  · intro hrows
    have htable : params.tableWf = true :=
      tableWf_iff.mpr fun code r hentry => (ProfileRow.wf_iff r).mpr (hrows code r hentry)
    exact ⟨fun hpower => instantiate_of_ambiguousPowerOff htable (powerOffWf_eq_false_iff.mpr hpower),
      fun hon hrefresh => instantiate_of_wf htable (powerOffWf_iff.mpr ⟨hon, hrefresh⟩)⟩

/-- Settles O13: BEGIN empties the list of `FB`'s bytes, so every address reads its zero fill. -/
theorem beginLeavesTheResetState : Obligations.BeginLeavesTheResetState := by
  intro s code hopen
  refine ⟨fun hinit => ?_, fun hinit => exec_beginOp_of_begun hopen hinit code⟩
  exact ⟨_, exec_beginOp_of_notBegun hopen hinit code, fun a _ => s.fbByte_begun_respond code .done a, rfl⟩

/-- Settles O14: the resolver finds the first row under the code, and none exactly where the table lacks the code. -/
theorem resolveFillsTheProfile : Obligations.ResolveFillsTheProfile := by
  intro params code
  exact ⟨fun _ _ _ htable hfirst => resolve_of_tableRow (tableRow_of_first htable hfirst),
    fun hlacks => resolve_of_unknown (tableRow_of_not_listed hlacks)⟩

/-- Settles O30: no coordinate lies in the empty rectangle, and planes and transfers have no byte. -/
theorem degenerateProfileIsInert : Obligations.DegenerateProfileIsInert := by
  intro s ha hdegenerate
  have hnowhere (x y : Int) : toBuffer s.profile x y s.orient = none := hdegenerate ▸ toBuffer_degenerate x y s.orient
  have hframe : s.profile.frameSize = 0 := congrArg Profile.frameSize hdegenerate
  refine ⟨fun x y c hc => ?_, fun x y => exec_getPixel_of_nowhere ha (hnowhere x y), fun c hc => ?_, ?_, ?_⟩
  · obtain ⟨colour, hcolour⟩ := exists_colourOperand hc
    exact exec_setPixel_of_nowhere ha hcolour (hnowhere x y)
  · obtain ⟨colour, hcolour⟩ := exists_colourOperand hc
    exact ⟨_, exec_clear_of_wellFormed ha (hdegenerate ▸ degenerate_wellFormed) hcolour,
      State.fbByte_clear_of_degenerate hdegenerate colour⟩
  · rw [State.prevPayload, hframe, State.fbBytes_zero]
  · rw [State.nextPayload, hframe, State.fbBytes_zero]

end Sys2Proof.Machine
end

section
/-! PROOFS. The Pixel Addressing Engine (41_pixel_addressing.md): the buffer coordinates of a pixel and the pixel of a
plane bit, the grey dither, polarity, the reading of a written pixel under any orientation, and the cycles, which
depend on neither `ORIENT` nor `INVERT`. -/

namespace Sys2Proof.Machine

/-! ## Buffer coordinates and logical coordinates -/

/-- The buffer coordinates R152 to R155 give a logical pixel, over all integers. -/
def bufferCoordinates (p : Profile) (x y : Int) : Orientation → Int × Int
  | .o0 => (y, x)
  | .o1 => (x, p.sizeH - 1 - y)
  | .o2 => (p.sizeV - 1 - y, p.sizeH - 1 - x)
  | .o3 => (p.sizeV - 1 - x, y)

/-- The logical pixel at a buffer row and column (R158). -/
def logicalPixel (p : Profile) (bx col : Int) : Orientation → Int × Int
  | .o0 => (col, bx)
  | .o1 => (bx, p.sizeH - 1 - col)
  | .o2 => (p.sizeH - 1 - col, p.sizeV - 1 - bx)
  | .o3 => (p.sizeV - 1 - bx, col)

theorem logicalPixel_bufferCoordinates (p : Profile) (x y : Int) (o : Orientation) :
    logicalPixel p (bufferCoordinates p x y o).1 (bufferCoordinates p x y o).2 o = (x, y) := by
  cases o <;> simp [logicalPixel, bufferCoordinates]

theorem bufferCoordinates_logicalPixel (p : Profile) (bx col : Int) (o : Orientation) :
    bufferCoordinates p (logicalPixel p bx col o).1 (logicalPixel p bx col o).2 o = (bx, col) := by
  cases o <;> simp [logicalPixel, bufferCoordinates]

theorem fromBuffer_eq_logicalPixel (p : Profile) (off bit : Nat) (o : Orientation) :
    fromBuffer p off bit o =
      logicalPixel p (off / p.bufferRowBytes : Nat) (8 * (off % p.bufferRowBytes) + (7 - bit) : Nat) o := by
  cases o <;> rfl

/-- The logical pixel of a buffer pixel lies inside the rectangle (R151). -/
theorem inRect_logicalPixel {p : Profile} {bx col : Nat} (hbx : bx < p.sizeV) (hcol : col < p.sizeH)
    (o : Orientation) : InRect p (logicalPixel p bx col o).1 (logicalPixel p bx col o).2 o := by
  cases o <;> simp only [InRect, rectWidth, rectHeight, logicalPixel] <;> omega

/-- Inside the rectangle the natural subtractions of the model are the integer ones of R152 to R155. -/
theorem placeOf_coordinates {p : Profile} {x y : Int} {o : Orientation} (h : InRect p x y o) :
    (((placeOf p x y o).bx : Int), ((placeOf p x y o).col : Int)) = bufferCoordinates p x y o := by
  cases o <;> simp only [InRect, rectWidth, rectHeight] at h <;>
    simp only [placeOf, bufferRow, bufferColumn, bufferCoordinates, Prod.mk.injEq] <;> omega

theorem coordinates_of_toBuffer {p : Profile} {x y : Int} {o : Orientation} {place : PixelPlace}
    (h : toBuffer p x y o = some place) : ((place.bx : Int), (place.col : Int)) = bufferCoordinates p x y o := by
  obtain ⟨hr, rfl⟩ := toBuffer_eq_some_iff.mp h
  exact placeOf_coordinates hr

/-- The place of a pixel inside the rectangle, by the formulas of R152 to R156. -/
theorem exists_toBuffer_of_inRect {p : Profile} {x y : Int} {o : Orientation} (h : InRect p x y o) :
    ∃ place, toBuffer p x y o = some place ∧
      ((place.bx : Int), (place.col : Int)) = bufferCoordinates p x y o ∧
      place.off = place.bx * p.bufferRowBytes + place.col / 8 ∧ place.bit = 7 - place.col % 8 :=
  ⟨placeOf p x y o, toBuffer_of_inRect h, placeOf_coordinates h, rfl, rfl⟩

/-- The translation over all integers: the rectangle of R151, and inside it the formulas of R152 to R156. -/
theorem toBuffer_formulas (p : Profile) (x y : Int) (o : Orientation) :
    (¬ (0 ≤ x ∧ x < rectWidth p o ∧ 0 ≤ y ∧ y < rectHeight p o) → toBuffer p x y o = none) ∧
    (0 ≤ x → x < rectWidth p o → 0 ≤ y → y < rectHeight p o →
      ∃ place, toBuffer p x y o = some place ∧
        ((place.bx : Int), (place.col : Int)) = bufferCoordinates p x y o ∧
        place.off = place.bx * p.bufferRowBytes + place.col / 8 ∧ place.bit = 7 - place.col % 8) :=
  ⟨fun hout => toBuffer_of_not_inRect fun ⟨⟨hx, hx'⟩, hy, hy'⟩ => hout ⟨hx, hx', hy, hy'⟩,
    fun hx hx' hy hy' => exists_toBuffer_of_inRect ⟨⟨hx, hx'⟩, hy, hy'⟩⟩

/-! ## The byte and bit of a buffer pixel -/

/-- The offset determines the buffer row, every row being `bufferRowBytes` long (R156, R158). -/
theorem byteOffset_div {p : Profile} {bx col : Nat} (h : col / 8 < p.bufferRowBytes) :
    byteOffset p bx col / p.bufferRowBytes = bx := by
  rw [byteOffset, Nat.mul_comm, Nat.mul_add_div (by omega), Nat.div_eq_of_lt h, Nat.add_zero]

theorem byteOffset_mod {p : Profile} {bx col : Nat} (h : col / 8 < p.bufferRowBytes) :
    byteOffset p bx col % p.bufferRowBytes = col / 8 := by
  rw [byteOffset, Nat.mul_comm, Nat.mul_add_mod, Nat.mod_eq_of_lt h]

/-- Byte of the row and bit of the byte determine the column (R156, R158). -/
theorem column_of_bitIndex (col : Nat) : 8 * (col / 8) + (7 - bitIndex col) = col := by
  unfold bitIndex
  omega

/-- `fromBuffer` leads the byte and bit of a buffer pixel to its logical pixel (R158). -/
theorem fromBuffer_byteOffset {p : Profile} (hp : p.WellFormed) (bx : Nat) {col : Nat} (hcol : col < p.sizeH)
    (o : Orientation) : fromBuffer p (byteOffset p bx col) (bitIndex col) o = logicalPixel p bx col o := by
  have hbyte : col / 8 < p.bufferRowBytes := by
    have hmod := hp.sizeH_mod
    have hrow := hp.rowBytes
    omega
  rw [fromBuffer_eq_logicalPixel, byteOffset_div hbyte, byteOffset_mod hbyte, column_of_bitIndex]

theorem fromBuffer_of_toBuffer {p : Profile} (hp : p.WellFormed) {x y : Int} {o : Orientation} {place : PixelPlace}
    (h : toBuffer p x y o = some place) : fromBuffer p place.off place.bit o = (x, y) := by
  obtain ⟨hr, rfl⟩ := toBuffer_eq_some_iff.mp h
  calc fromBuffer p (placeOf p x y o).off (placeOf p x y o).bit o
      = logicalPixel p (placeOf p x y o).bx (placeOf p x y o).col o :=
        fromBuffer_byteOffset hp _ (bufferColumn_lt hr) o
    _ = logicalPixel p (bufferCoordinates p x y o).1 (bufferCoordinates p x y o).2 o := by
        rw [← placeOf_coordinates hr]
    _ = (x, y) := logicalPixel_bufferCoordinates p x y o

/-- Every bit of a plane is the place of the pixel `fromBuffer` names (R157, R158). -/
theorem exists_toBuffer_fromBuffer {p : Profile} (hp : p.WellFormed) {off bit : Nat} (hoff : off < p.planeSize)
    (hbit : bit ≤ 7) (o : Orientation) :
    ∃ place, toBuffer p (fromBuffer p off bit o).1 (fromBuffer p off bit o).2 o = some place ∧
      place.off = off ∧ place.bit = bit := by
  have hplane : off < p.sizeV * p.bufferRowBytes := hp.plane ▸ hoff
  have hwidth : 0 < p.bufferRowBytes := Nat.pos_of_ne_zero fun hzero => by simp [hzero] at hplane
  have hrow : off / p.bufferRowBytes < p.sizeV := (Nat.div_lt_iff_lt_mul hwidth).mpr hplane
  have hcol : 8 * (off % p.bufferRowBytes) + (7 - bit) < p.sizeH := by
    have hbyte := Nat.mod_lt off hwidth
    have hbytes := hp.rowBytes
    omega
  rw [fromBuffer_eq_logicalPixel]
  obtain ⟨place, hplace, hcoordinates, hplaceOff, hplaceBit⟩ :=
    exists_toBuffer_of_inRect (inRect_logicalPixel hrow hcol o)
  rw [bufferCoordinates_logicalPixel, Prod.mk.injEq, Nat.cast_inj, Nat.cast_inj] at hcoordinates
  obtain ⟨hplaceRow, hplaceCol⟩ := hcoordinates
  refine ⟨place, hplace, ?_, by omega⟩
  have hbyte : (8 * (off % p.bufferRowBytes) + (7 - bit)) / 8 = off % p.bufferRowBytes := by omega
  rw [hplaceOff, hplaceRow, hplaceCol, hbyte, Nat.div_add_mod']

/-! ## The grey dither -/

theorem reduceColour_grey_eq_black_iff {params : Params} {x y : Int} {place : PixelPlace} :
    reduceColour params .grey x y place = .black ↔
      ditherSum params.greyFrame x y place % 2 = (params.greyBlackParity.val : Int) := by
  simp [reduceColour]

theorem ditherSum_buffer {p : Profile} {x y : Int} {o : Orientation} {place : PixelPlace}
    (h : toBuffer p x y o = some place) :
    ditherSum .buffer x y place = (bufferCoordinates p x y o).1 + (bufferCoordinates p x y o).2 := by
  rw [← coordinates_of_toBuffer h, ditherSum]

/-- Between two pixels the dither sums of both frames change by the same parity: an orientation swaps or mirrors the
axes, and neither changes the parity of a difference. -/
theorem ditherSum_sub_mod_two {p : Profile} {x y x' y' : Int} {o : Orientation} {here there : PixelPlace}
    (hhere : toBuffer p x y o = some here) (hthere : toBuffer p x' y' o = some there) (frame : GreyFrame) :
    (ditherSum frame x' y' there - ditherSum frame x y here) % 2 = (x' + y' - (x + y)) % 2 := by
  cases frame with
  | logical => rfl
  | buffer =>
    rw [ditherSum_buffer hhere, ditherSum_buffer hthere]
    cases o <;> simp only [bufferCoordinates] <;> omega

/-- Pixels an odd number of steps apart are written in different colours (R159). -/
theorem reduceColour_grey_ne {params : Params} {p : Profile} {x y x' y' : Int} {o : Orientation}
    {here there : PixelPlace} (hhere : toBuffer p x y o = some here) (hthere : toBuffer p x' y' o = some there)
    (hodd : (x' + y' - (x + y)) % 2 = 1) :
    reduceColour params .grey x' y' there ≠ reduceColour params .grey x y here := by
  intro heq
  have hsub := ditherSum_sub_mod_two hhere hthere params.greyFrame
  have hiff := reduceColour_grey_eq_black_iff (params := params) (x := x') (y := y') (place := there)
  rw [heq, reduceColour_grey_eq_black_iff] at hiff
  have hparity := params.greyBlackParity.isLt
  omega

/-! ## Polarity -/

@[simp] theorem colourOf_rawBit (c : BinColour) (inv : Bool) : colourOf (rawBit c inv) inv = c := by
  cases c <;> cases inv <;> rfl

/-- A stored bit reads as the same colour under two flags exactly when the flags agree (R161). -/
theorem colourOf_eq_iff {b inv inv' : Bool} : colourOf b inv = colourOf b inv' ↔ inv = inv' := by
  cases b <;> cases inv <;> cases inv' <;> decide

/-! ## What the pixel operations answer -/

section PixelOperations

variable {s : State} {x y : Int} {place : PixelPlace}

/-- SETPIXEL inside the rectangle writes the reduced colour's bit (R182). -/
theorem exec_setPixel_of_place (ha : s.Accepting) (hp : s.profile.WellFormed) {c : ColourArg} {colour : Colour}
    (hcolour : colourOperand c = some colour) (hplace : toBuffer s.profile x y s.orient = some place) :
    exec (.setPixel x y c) s =
      .next ((s.setFb (s.pixelWritten place (reduceColour s.params colour x y place))).respond .done) := by
  change s.whenBegun _ = _
  rw [State.whenBegun_of_accepting ha, hcolour, hplace]
  simp only [State.putPixel_eq (off_lt_fbSize hp hplace)]

/-- GETPIXEL inside the rectangle answers the stored bit's colour (R183). -/
theorem exec_getPixel_of_place (ha : s.Accepting) (hp : s.profile.WellFormed)
    (hplace : toBuffer s.profile x y s.orient = some place) :
    exec (.getPixel x y) s =
      .next (s.respond (.colour (colourOf ((s.fbByte place.off).getLsbD place.bit) s.invert))) := by
  change s.whenBegun _ = _
  rw [State.whenBegun_of_accepting ha, hplace]
  simp only [State.pixelColour, State.nextBase_eq, Nat.zero_add, State.memReadByte_of_lt (off_lt_fbSize hp hplace)]

/-- The bit SETPIXEL wrote is the raw bit of the colour (R182). -/
theorem State.getLsbD_pixelWritten (s : State) (hbit : place.bit < 8) (c : BinColour) :
    ((s.setFb (s.pixelWritten place c)).fbByte place.off).getLsbD place.bit = rawBit c s.invert := by
  have hbyte : (s.setFb (s.pixelWritten place c)).fbByte place.off =
      withBit (s.fbByte place.off) place.bit (rawBit c s.invert) :=
    (State.fbByte_setFb_write ..).trans (by simp)
  rw [hbyte, getLsbD_withBit _ hbit _ _ hbit, if_pos rfl]

theorem exec_setOrient_of_accepting (ha : s.Accepting) {n : Int} {o : Orientation} (h : orientOperand n = some o) :
    exec (.setOrient n) s = .next ((s.setOrientation o).respond .done) := by
  change s.whenBegun _ = _
  rw [State.whenBegun_of_accepting ha, h]

theorem exec_setInvert_of_accepting (ha : s.Accepting) (flag : Bool) :
    exec (.setInvert flag) s = .next ((s.setInversion flag).respond .done) :=
  State.whenBegun_of_accepting ha _

theorem orientOperand_orientNumber (o : Orientation) : orientOperand (orientNumber o) = some o := by
  cases o <;> rfl

/-- A pixel written under one orientation is read under another at the pixel of the same byte and bit (R163). -/
theorem exec_getPixel_of_otherOrientation (ha : s.Accepting) (hp : s.profile.WellFormed) {c : ColourArg}
    {colour : Colour} (hcolour : colourOperand c = some colour)
    (hplace : toBuffer s.profile x y s.orient = some place) (o' : Orientation) :
    ∃ t u, exec (.setPixel x y c) s = .next t ∧ exec (.setOrient (orientNumber o')) t = .next u ∧
      exec (.getPixel (fromBuffer s.profile place.off place.bit o').1
          (fromBuffer s.profile place.off place.bit o').2) u =
        .next (u.respond (.colour (reduceColour s.params colour x y place))) := by
  have hbit := bit_lt_of_toBuffer hplace
  obtain ⟨place', hplace', hoff, hbit'⟩ :=
    exists_toBuffer_fromBuffer hp (off_lt_of_toBuffer hp hplace) (Nat.le_of_lt_succ hbit) o'
  have hread : colourOf (((s.setFb (s.pixelWritten place (reduceColour s.params colour x y place))).fbByte
      place'.off).getLsbD place'.bit) s.invert = reduceColour s.params colour x y place := by
    rw [hoff, hbit', s.getLsbD_pixelWritten hbit, colourOf_rawBit]
  refine ⟨_, _, exec_setPixel_of_place ha hp hcolour hplace,
    exec_setOrient_of_accepting ?_ (orientOperand_orientNumber o'),
    (exec_getPixel_of_place (place := place') ?_ ?_ ?_).trans ?_⟩
  · exact ha
  · exact ha
  · exact hp
  · exact hplace'
  · exact congrArg (fun read => Host.Outcome.next (State.respond _ (.colour read))) hread

end PixelOperations

/-! ## A cycle under other values of `ORIENT` and `INVERT` -/

/-- `ORIENT` and `INVERT` put to other values, everything else as it was. -/
def State.withPixelRegisters (s : State) (o : Orientation) (b : Bool) : State := { s with orient := o, invert := b }

section OtherPixelRegisters

variable {s t : State} (o : Orientation) (b : Bool)

theorem State.sampleLine_withPixelRegisters (s : State) :
    (s.withPixelRegisters o b).sampleLine = s.sampleLine.withPixelRegisters o b := by
  cases hline : s.busyLine <;> simp [State.sampleLine, State.withPixelRegisters, hline]

theorem State.sendFrom_withPixelRegisters {site : Seq} {e : Event} (h : s.sendFrom site e = .next t) :
    (s.withPixelRegisters o b).sendFrom site e = .next (t.withPixelRegisters o b) := by
  obtain ⟨hsite, rfl⟩ := State.of_sendFrom_next h
  exact State.sendFrom_at (s := s.withPixelRegisters o b) hsite e

theorem State.transferFrom_withPixelRegisters {site : Seq} {index : Byte} {base : Nat}
    (h : s.transferFrom site index base = .next t) :
    (s.withPixelRegisters o b).transferFrom site index base = .next (t.withPixelRegisters o b) := by
  obtain ⟨hsite, hfits, rfl⟩ := State.of_transferFrom_next h
  exact State.transferFrom_at (s := s.withPixelRegisters o b) hsite index hfits

/-- The payloads of the panel commands come from `MODE`, `P.*`, `FB` and the parameters (43_cog_update.md R202). -/
theorem exec_panel_withPixelRegisters {i : Instr} (hpanel : i.isHostOp = false) (h : exec i s = .next t) :
    exec i (s.withPixelRegisters o b) = .next (t.withPixelRegisters o b) := by
  cases i with
  | pSoftReset | pTempInput | pTempActivate | pPsr | pPowerOn | pRefresh | pPowerOff =>
    exact State.sendFrom_withPixelRegisters o b h
  | pDataPrev | pDataNext => exact State.transferFrom_withPixelRegisters o b h
  | pVcom =>
    change execPVcom s = _ at h
    change execPVcom _ = _
    unfold execPVcom at h ⊢
    split at h
    · exact (if_pos ‹_›).trans (State.sendFrom_withPixelRegisters o b h)
    · refine (if_neg ‹_›).trans ?_
      split at h
      · exact (if_pos ‹_›).trans (State.sendFrom_withPixelRegisters o b h)
      · exact (if_neg ‹_›).trans (State.sendFrom_withPixelRegisters o b h)
  | _ => cases hpanel

theorem commitStep_withPixelRegisters (h : commitStep s = .next t) :
    commitStep (s.withPixelRegisters o b) = .next (t.withPixelRegisters o b) := by
  rw [commitStep_eq, Host.Outcome.next.injEq] at h
  rw [commitStep_eq, ← h]
  rfl

theorem waitStep_withPixelRegisters (h : waitStep s = .next t) :
    waitStep (s.withPixelRegisters o b) = .next (t.withPixelRegisters o b) := by
  unfold waitStep
  rw [State.sampleLine_withPixelRegisters]
  obtain ⟨hready, rfl⟩ | ⟨hbusy, rfl⟩ := waitStep_next h
  · exact if_pos hready
  · exact if_neg (Bool.eq_false_iff.mp hbusy)

/-- The last wait of a FLUSH or FLUSHMODE fills no plane, so `INVERT` does not enter (R220). -/
theorem offWaitStep_withPixelRegisters (hregen : s.regen = .off) (h : offWaitStep s = .next t) :
    offWaitStep (s.withPixelRegisters o b) = .next (t.withPixelRegisters o b) := by
  have hend (u : State) (hu : u.regen = .off) : endCycle u = .next u.finishCycle := by rw [endCycle_eq, hu]
  unfold offWaitStep
  rw [State.sampleLine_withPixelRegisters]
  obtain ⟨hready, hnext⟩ | ⟨hbusy, rfl⟩ := offWaitStep_next h
  · rw [hend _ (by simpa using hregen), Host.Outcome.next.injEq] at hnext
    rw [← hnext]
    exact (if_pos hready).trans (hend _ (by simpa [State.withPixelRegisters] using hregen))
  · exact if_neg (Bool.eq_false_iff.mp hbusy)

end OtherPixelRegisters

/-! ## The obligations -/

/-- Settles O15: the rectangle and the coordinates of orientations 0 and 2. -/
theorem swappingOrientationsFollowTheFormulas : Obligations.SwappingOrientationsFollowTheFormulas := by
  rintro p x y o (rfl | rfl)
  · exact toBuffer_formulas p x y .o0
  · exact toBuffer_formulas p x y .o2

/-- Settles O16: the rectangle and the coordinates of orientations 1 and 3. -/
theorem mirroringOrientationsFollowTheFormulas : Obligations.MirroringOrientationsFollowTheFormulas := by
  rintro p x y o (rfl | rfl)
  · exact toBuffer_formulas p x y .o1
  · exact toBuffer_formulas p x y .o3

/-- Settles O17: `fromBuffer` is an inverse on both sides. -/
theorem toBufferIsABijectionOntoThePlane : Obligations.ToBufferIsABijectionOntoThePlane := by
  intro p o hp
  refine ⟨fun x y place hplace => ?_, fun off bit hoff hbit => exists_toBuffer_fromBuffer hp hoff hbit o⟩
  obtain ⟨hr, hplaceOf⟩ := toBuffer_eq_some_iff.mp hplace
  exact ⟨hplaceOf ▸ bufferRow_lt hr, hplaceOf ▸ bufferColumn_lt hr, off_lt_of_toBuffer hp hplace,
    Nat.le_of_lt_succ (bit_lt_of_toBuffer hplace), fromBuffer_of_toBuffer hp hplace⟩

/-- Settles O19: the neighbour's dither sum has the other parity in either frame. -/
theorem greyWritesACheckerboard : Obligations.GreyWritesACheckerboard := by
  intro params p o x y here there hhere
  refine ⟨rfl, rfl, fun hframe => ?_, fun hframe => ?_,
    fun hthere => reduceColour_grey_ne hhere hthere (by omega),
    fun hthere => reduceColour_grey_ne hhere hthere (by omega)⟩
  · rw [reduceColour_grey_eq_black_iff, hframe, ditherSum]
  · rw [reduceColour_grey_eq_black_iff, hframe, ditherSum]
    omega

/-- Settles O28: the place under the other orientation has the byte and bit that were written. -/
theorem changingOrientationMovesNoPixel : Obligations.ChangingOrientationMovesNoPixel := by
  intro s x y o' place black ha hp hplace
  cases black
  · exact exec_getPixel_of_otherOrientation ha hp (colour := .white) rfl hplace o'
  · exact exec_getPixel_of_otherOrientation ha hp (colour := .black) rfl hplace o'

/-- Settles O32: the same stored bit is read under either flag. -/
theorem setInvertFlipsWhatPixelsReadAs : Obligations.SetInvertFlipsWhatPixelsReadAs := by
  intro s flag ha
  exact ⟨_, exec_setInvert_of_accepting ha flag, rfl, fun x y place hp hplace =>
    ⟨_, _, exec_getPixel_of_place ha hp hplace, exec_getPixel_of_place ha hp hplace, colourOf_eq_iff⟩⟩

/-- Settles O56: each kind of step of a cycle commutes with putting the two registers to other values. -/
theorem cyclesIgnoreOrientAndInvert : Obligations.CyclesIgnoreOrientAndInvert := by
  intro s t o b hrunning hregen hstep
  have hclosed : ¬ s.PortOpen := fun hopen => hrunning hopen.1
  suffices hcycle : s.hostPort = none ∧ cycleStep (s.withPixelRegisters o b) = .next (t.withPixelRegisters o b) from
    (step_of_running (s := s.withPixelRegisters o b) hclosed hcycle.1).trans hcycle.2
  obtain ⟨hopen, -⟩ | ⟨hopen, -⟩ | ⟨-, hport, i, hcommand, h⟩ | ⟨-, hport, hwait, hinside, h⟩ |
    ⟨-, hport, hcommit, h⟩ | ⟨-, hport, hlast, h⟩ := step_next_cases hstep
  · exact absurd hopen hclosed
  · exact absurd hopen hclosed
  · exact ⟨hport, (cycleStep_of_command (s := s.withPixelRegisters o b) hcommand).trans
      (exec_panel_withPixelRegisters o b (isHostOp_of_command hcommand) h)⟩
  · exact ⟨hport, (cycleStep_of_wait (s := s.withPixelRegisters o b) hwait hinside).trans
      (waitStep_withPixelRegisters o b h)⟩
  · exact ⟨hport, (cycleStep_of_commit (s := s.withPixelRegisters o b) hcommit).trans
      (commitStep_withPixelRegisters o b h)⟩
  · exact ⟨hport, (cycleStep_of_offWait (s := s.withPixelRegisters o b) hlast).trans
      (offWaitStep_withPixelRegisters o b hregen h)⟩

/-- Settles O18: four entries of the table, and reading back under either flag. -/
theorem polarityRoundTrips : Obligations.PolarityRoundTrips := by
  refine ⟨by decide, fun c inv => ⟨colourOf_rawBit c inv, fun hsame => ?_⟩⟩
  exact Bool.not_ne_self inv (colourOf_eq_iff.mp (hsame.trans (colourOf_rawBit c inv).symm))

/-- Settles O31: each number names its orientation. -/
theorem setOrientSetsOrient : Obligations.SetOrientSetsOrient := by
  intro s o ha
  refine exec_setOrient_of_accepting (o := o) ha ?_
  cases o <;> rfl

end Sys2Proof.Machine
end

section
/-! PROOFS. The frame buffer (42_frame_buffer.md): the bytes CLEAR leaves in the "next" plane, the one bit SETPIXEL
writes, and what GETPIXEL then reads, inside the rectangle and outside it. -/

namespace Sys2Proof.Machine

/-! ## The bytes a CLEAR leaves -/

section Clear

variable {s : State}

/-- CLEAR answers whenever its bytes fit `FB`, which a solid fill's do under every profile. -/
theorem exec_clear_of_fits (ha : s.Accepting) {c : ColourArg} {colour : Colour}
    (hcolour : colourOperand c = some colour) (hfits : 0 + (s.clearBytes colour).length ≤ s.fbSize) :
    exec (.clear c) s = .next ((s.setFb (s.fb.write 0 (s.clearBytes colour))).respond .done) := by
  change s.whenBegun _ = _
  rw [State.whenBegun_of_accepting ha, hcolour]
  simp only [State.clearWrite_eq_memWrite, State.memWrite_of_le hfits]

/-- A CLEAR whose bytes are a solid fill leaves the fill byte in the "next" plane and changes no other byte (R180). -/
theorem exec_clear_of_solidPlane (ha : s.Accepting) {c : ColourArg} {colour : Colour} {solid : BinColour}
    (hcolour : colourOperand c = some colour) (hbytes : s.clearBytes colour = s.solidPlane solid) :
    ∃ t, exec (.clear c) s = .next t ∧
      (∀ a, a < s.profile.planeSize → t.fbByte a = s.fillByte solid) ∧
      (∀ a, s.profile.planeSize ≤ a → t.fbByte a = s.fbByte a) ∧
      t = { s with fb := t.fb, responses := s.responses ++ [.done] } := by
  have hclear := exec_clear_of_fits ha hcolour (hbytes ▸ s.length_solidPlane_le solid)
  rw [hbytes] at hclear
  exact ⟨_, hclear, fun a hin => (s.fbByte_clearSolid solid a).trans (if_pos hin),
    fun a hout => (s.fbByte_clearSolid solid a).trans (if_neg (Nat.not_lt.mpr hout)), rfl⟩

/-- The rows of R180's table: each colour operand's solid fill, with its byte by `INVERT`. -/
theorem exists_solidPlane_of_listed {c : ColourArg} {fill : Byte}
    (h : (c, s.invert, fill) ∈ ([(.white, false, 0x00#8), (.black, false, 0xFF#8), (.white, true, 0xFF#8),
      (.black, true, 0x00#8)] : List (ColourArg × Bool × Byte))) :
    ∃ colour solid, colourOperand c = some colour ∧ s.clearBytes colour = s.solidPlane solid ∧
      s.fillByte solid = fill := by
  simp only [List.mem_cons, List.not_mem_nil, or_false, Prod.mk.injEq] at h
  obtain ⟨rfl, hinvert, rfl⟩ | ⟨rfl, hinvert, rfl⟩ | ⟨rfl, hinvert, rfl⟩ | ⟨rfl, hinvert, rfl⟩ := h
  · exact ⟨.white, .white, rfl, rfl, by rw [State.fillByte, hinvert]; rfl⟩
  · exact ⟨.black, .black, rfl, rfl, by rw [State.fillByte, hinvert]; rfl⟩
  · exact ⟨.white, .white, rfl, rfl, by rw [State.fillByte, hinvert]; rfl⟩
  · exact ⟨.black, .black, rfl, rfl, by rw [State.fillByte, hinvert]; rfl⟩

/-- Every bit of the fill byte is the raw bit of the colour (R180). -/
theorem State.getLsbD_fillByte (s : State) (solid : BinColour) {bit : Nat} (hbit : bit < 8) :
    (s.fillByte solid).getLsbD bit = rawBit solid s.invert := by
  have hones : ∀ k < 8, (0xFF#8).getLsbD k = true := by decide
  unfold State.fillByte
  cases rawBit solid s.invert
  · exact BitVec.getLsbD_zero
  · exact hones bit hbit

/-- A CLEAR of a sound profile changes no byte past the "next" plane. -/
theorem State.fbByte_clear_of_planeSize_le (hp : s.profile.WellFormed) (colour : Colour) {a : Nat}
    (h : s.profile.planeSize ≤ a) : (s.setFb (s.fb.write 0 (s.clearBytes colour))).fbByte a = s.fbByte a := by
  rw [State.fbByte_setFb_write, State.length_clearBytes hp, if_neg (by omega)]

/-- After CLEAR grey a byte of buffer row `bx` is the row's pattern (R181). -/
theorem State.fbByte_clear_grey (hp : s.profile.WellFormed) {bx j : Nat} (hbx : bx < s.profile.sizeV)
    (hj : j < s.profile.bufferRowBytes) :
    (s.setFb (s.fb.write 0 (s.clearBytes .grey))).fbByte (bx * s.profile.bufferRowBytes + j) =
      if bx % 2 = 0 then 0x55#8 else 0xAA#8 := by
  have hinside : bx * s.profile.bufferRowBytes + j < s.profile.sizeV * s.profile.bufferRowBytes := by
    calc bx * s.profile.bufferRowBytes + j < (bx + 1) * s.profile.bufferRowBytes := by rw [Nat.succ_mul]; omega
      _ ≤ s.profile.sizeV * s.profile.bufferRowBytes := Nat.mul_le_mul_right _ hbx
  have hrow : (bx * s.profile.bufferRowBytes + j) / s.profile.bufferRowBytes = bx :=
    Nat.div_eq_of_lt_le (Nat.le_add_right _ _) (by rw [Nat.succ_mul]; omega)
  rw [State.fbByte_setFb_write, State.length_clearBytes hp, hp.plane, if_pos (by omega), Nat.sub_zero]
  exact (getD_greyPlane s.profile _ _ hinside).trans (by rw [hrow])

end Clear

/-- The pattern of row `bx` has the checkerboard's bit at each column (R181). -/
theorem getLsbD_greyByte (bx col : Nat) :
    (if bx % 2 = 0 then 0x55#8 else 0xAA#8).getLsbD (bitIndex col) = ((bx + col) % 2 == 1) := by
  have heven : ∀ k < 8, (0x55#8).getLsbD k = (k % 2 == 0) := by decide
  have hodd : ∀ k < 8, (0xAA#8).getLsbD k = (k % 2 == 1) := by decide
  have hparity : bitIndex col % 2 = (col + 1) % 2 := by unfold bitIndex; omega
  rw [Bool.eq_iff_iff, beq_iff_eq]
  split
  · rw [heven _ (bitIndex_lt col), beq_iff_eq]
    omega
  · rw [hodd _ (bitIndex_lt col), beq_iff_eq]
    omega

/-! ## Reading a pixel after a write -/

section Pixel

variable {s : State} {x y : Int} {place : PixelPlace}

/-- The byte at an address after SETPIXEL's write (R182). -/
theorem State.fbByte_pixelWritten (s : State) (place : PixelPlace) (c : BinColour) (a : Nat) :
    (s.setFb (s.pixelWritten place c)).fbByte a =
      if a = place.off then withBit (s.fbByte place.off) place.bit (rawBit c s.invert) else s.fbByte a := by
  refine (State.fbByte_setFb_write ..).trans ?_
  by_cases h : a = place.off
  · simp [h]
  · rw [if_neg h, if_neg (by simp only [List.length_singleton]; omega)]

/-- GETPIXEL after an operation that wrote `FB` and responded reads the bit then stored (R183). -/
theorem exec_getPixel_of_written (ha : s.Accepting) (hp : s.profile.WellFormed)
    (hplace : toBuffer s.profile x y s.orient = some place) {m : Memory} {r : Response} {read : BinColour}
    (hread : colourOf (((s.setFb m).fbByte place.off).getLsbD place.bit) s.invert = read) :
    exec (.getPixel x y) ((s.setFb m).respond r) =
      .next (((s.setFb m).respond r).respond (.colour read)) := by
  subst hread
  exact exec_getPixel_of_place (s := (s.setFb m).respond r) ha hp hplace

/-- After CLEAR black the bit of every place in the rectangle reads black, whatever `INVERT` (R188). -/
theorem colourOf_clear_black (hp : s.profile.WellFormed) (hplace : toBuffer s.profile x y s.orient = some place) :
    colourOf (((s.setFb (s.fb.write 0 (s.clearBytes .black))).fbByte place.off).getLsbD place.bit) s.invert =
      .black := by
  have hbyte : (s.setFb (s.fb.write 0 (s.clearBytes .black))).fbByte place.off = s.fillByte .black :=
    (s.fbByte_clearSolid .black place.off).trans (if_pos (off_lt_of_toBuffer hp hplace))
  rw [hbyte, s.getLsbD_fillByte .black (bit_lt_of_toBuffer hplace), colourOf_rawBit]

/-- After CLEAR black GETPIXEL answers black inside the rectangle and white outside it (R187, R188). -/
theorem exec_getPixel_of_clear_black (ha : s.Accepting) (hp : s.profile.WellFormed) (x y : Int) :
    ∃ u, exec (.clear .black) s = .next u ∧
      exec (.getPixel x y) u =
        .next (u.respond (.colour (if InRect s.profile x y s.orient then .black else .white))) := by
  refine ⟨_, exec_clear_of_wellFormed ha hp rfl, ?_⟩
  split
  · have hplace := toBuffer_of_inRect ‹_›
    exact exec_getPixel_of_written ha hp hplace (colourOf_clear_black hp hplace)
  · exact exec_getPixel_of_nowhere (s := (s.setFb (s.fb.write 0 (s.clearBytes .black))).respond .done) ha
      (toBuffer_of_not_inRect ‹_›)

/-- After CLEAR grey the bit of every place in the rectangle is the checkerboard's of its buffer pixel (R181). -/
theorem getLsbD_clear_grey (hp : s.profile.WellFormed) (hplace : toBuffer s.profile x y s.orient = some place) :
    ((s.setFb (s.fb.write 0 (s.clearBytes .grey))).fbByte place.off).getLsbD place.bit =
      ((place.bx + place.col) % 2 == 1) := by
  obtain ⟨hr, rfl⟩ := toBuffer_eq_some_iff.mp hplace
  have hcol := bufferColumn_lt hr
  have hbyte : bufferColumn s.profile x.toNat y.toNat s.orient / 8 < s.profile.bufferRowBytes := by
    have hmod := hp.sizeH_mod
    have hbytes := hp.rowBytes
    omega
  exact (congrArg (BitVec.getLsbD · _) (State.fbByte_clear_grey hp (bufferRow_lt hr) hbyte)).trans
    (getLsbD_greyByte _ _)

end Pixel

/-! ## The obligations -/

/-- Settles O20: each of the four rows names a solid fill and its byte. -/
theorem clearSolidFillsTheNextPlane : Obligations.ClearSolidFillsTheNextPlane := by
  intro s ha c fill hlisted
  obtain ⟨colour, solid, hcolour, hbytes, rfl⟩ := exists_solidPlane_of_listed hlisted
  exact exec_clear_of_solidPlane ha hcolour hbytes

/-- Settles O21: the plane's bytes row by row, and none past the plane. -/
theorem clearGreyWritesTheRowPatterns : Obligations.ClearGreyWritesTheRowPatterns := by
  intro s ha hp
  exact ⟨_, exec_clear_of_wellFormed ha hp rfl, fun _ _ hbx hj => State.fbByte_clear_grey hp hbx hj,
    fun _ hout => State.fbByte_clear_of_planeSize_le hp .grey hout, rfl⟩

/-- Settles O22: the write replaces the byte of the pixel by that byte with the one bit put. -/
theorem setPixelWritesOneBit : Obligations.SetPixelWritesOneBit := by
  intro s x y c colour place ha hp hcolour hplace
  refine ⟨_, exec_setPixel_of_place ha hp hcolour hplace, fun k hk => ?_, fun a hother => ?_, rfl⟩
  · have hbyte := (s.fbByte_pixelWritten place (reduceColour s.params colour x y place) place.off).trans (if_pos rfl)
    exact (congrArg (BitVec.getLsbD · k) hbyte).trans (getLsbD_withBit _ (bit_lt_of_toBuffer hplace) _ k hk)
  · exact (s.fbByte_pixelWritten place _ a).trans (if_neg hother)

/-- Settles O23: the response is `colourOf` of the stored bit, written out. -/
theorem getPixelReadsTheStoredBit : Obligations.GetPixelReadsTheStoredBit :=
  fun _ _ _ _ ha hp hplace => exec_getPixel_of_place ha hp hplace

/-- Settles O24: outside the rectangle the translation fails before `FB` or `INVERT` is read. -/
theorem outOfRangePixelsAreInert : Obligations.OutOfRangePixelsAreInert := by
  intro s x y ha hout
  have hnowhere := toBuffer_of_not_inRect hout
  refine ⟨fun c hc => ?_, exec_getPixel_of_nowhere ha hnowhere⟩
  obtain ⟨colour, hcolour⟩ := exists_colourOperand hc
  exact exec_setPixel_of_nowhere ha hcolour hnowhere

/-- Settles O25: the bit read is the one written, and `colourOf` undoes `rawBit` under the same `INVERT`. -/
theorem pixelRoundTrip : Obligations.PixelRoundTrip := by
  intro s x y c colour place ha hp hcolour hplace
  refine ⟨_, exec_setPixel_of_place ha hp hcolour hplace, exec_getPixel_of_written ha hp hplace ?_⟩
  rw [s.getLsbD_pixelWritten (bit_lt_of_toBuffer hplace), colourOf_rawBit]
  cases colour <;> rfl

/-- Settles O26: the second clear decides what every pixel of the rectangle reads as. -/
theorem clearBlackThenEveryPixelReadsBlack : Obligations.ClearBlackThenEveryPixelReadsBlack := by
  intro s x y ha hp
  obtain ⟨u, hblack, hread⟩ :=
    exec_getPixel_of_clear_black (s := (s.setFb (s.fb.write 0 (s.clearBytes .white))).respond .done) ha hp x y
  exact ⟨_, u, exec_clear_of_wellFormed ha hp rfl, hblack, hread⟩

/-- Settles O27: the clear writes the checkerboard's bits and GETPIXEL reads them by `colourOf`. -/
theorem greyClearReadsAsACheckerboard : Obligations.GreyClearReadsAsACheckerboard := by
  intro s x y place ha hp hplace
  refine ⟨_, exec_clear_of_wellFormed ha hp rfl, exec_getPixel_of_written ha hp hplace ?_⟩
  rw [getLsbD_clear_grey hp hplace, colourOf]

end Sys2Proof.Machine
end

section
/-! PROOFS. The update engine (43_cog_update.md): how an operation starts a cycle, what each step of a cycle does, and
the run of a whole cycle, from which FLUSH's one cycle and REGENERATE's two follow. -/

namespace Sys2Proof.Machine

/-! ## The variant predicates and the fill, written out -/

section WrittenOut

variable (s : State)

/-- Vcom commands are wanted of a fast-capable profile outside mode Global (R203). -/
theorem State.vc_iff : s.vc = true ↔ s.profile.fastCapable = true ∧ s.mode ≠ .globalMode := by
  simp [State.vc]

theorem State.temperatureByte_eq : s.temperatureByte = cycleTemperature s.params s.mode := by
  unfold State.temperatureByte cycleTemperature State.fv
  cases s.mode <;> rfl

theorem State.psrBytes_eq : [s.psr0Byte, s.psr1Byte] = cyclePsr s.profile s.mode := by
  unfold State.psr0Byte State.psr1Byte cyclePsr State.fv
  cases s.mode <;> rfl

theorem State.fillByte_black : s.fillByte .black = if s.invert then 0x00#8 else 0xFF#8 := by
  unfold State.fillByte
  cases s.invert <;> rfl

theorem State.fillByte_white : s.fillByte .white = if s.invert then 0xFF#8 else 0x00#8 := by
  unfold State.fillByte
  cases s.invert <;> rfl

/-- FLUSHMODE responds the mode used, the other operations nothing (R220). -/
theorem State.cycleResponse_eq :
    s.cycleResponse = if s.inProgress = some .flushMode then .mode s.mode else .done := by
  unfold State.cycleResponse
  cases s.inProgress with
  | none => rfl
  | some op => cases op <;> rfl

end WrittenOut

/-! ## One sample of the busy line, one answer of the collaborator -/

/-- `s` with the busy line and the draw counter put to other values, as a sample puts them. -/
def State.sampled (s : State) (line : List Bool) (draws : Nat) : State := { s with busyLine := line, draws := draws }

/-- A sample is the head of the line or, with none left, the free value; moving past it changes the line and the draw
counter (R49, log 5). -/
theorem State.exists_sampleLine (s : State) :
    ∃ line draws, s.sampleLine = s.sampled line draws ∧
      (∀ r rest, s.busyLine = r :: rest → s.lineReady = r ∧ line = rest ∧ draws = s.draws) ∧
      (s.busyLine = [] → s.lineReady = Config.panelReady s.draws ∧ line = [] ∧ draws = s.draws + 1) := by
  unfold State.sampleLine State.lineReady
  cases hline : s.busyLine with
  | nil => exact ⟨[], s.draws + 1, rfl, nofun, fun _ => ⟨rfl, rfl, rfl⟩⟩
  | cons r rest =>
    refine ⟨rest, s.draws, rfl, ?_, nofun⟩
    rintro _ _ ⟨⟩
    exact ⟨rfl, rfl, rfl⟩

/-- `s` with the collaborator's answers and the draw counter put to other values, as taking an answer puts them. -/
def State.answered (s : State) (answers : List UpdateMode) (draws : Nat) : State :=
  { s with tempAnswers := answers, draws := draws }

/-- An answer is the head of those lined up, whatever the request; moving past it changes the answers and the draw
counter (R226, log 6). -/
theorem State.exists_takeAnswer (s : State) (m : UpdateMode) :
    ∃ answers draws, s.takeAnswer = s.answered answers draws ∧
      ∀ a rest, s.tempAnswers = a :: rest → s.temperatureAnswer m = a ∧ answers = rest ∧ draws = s.draws := by
  unfold State.takeAnswer State.temperatureAnswer
  cases hanswers : s.tempAnswers with
  | nil => exact ⟨[], s.draws + 1, rfl, nofun⟩
  | cons a rest =>
    refine ⟨rest, s.draws, rfl, ?_⟩
    rintro _ _ ⟨⟩
    exact ⟨rfl, rfl, rfl⟩

/-! ## Starting a cycle -/

/-- Applying an answer takes no further one (R225). -/
theorem State.applyMode_answers (s : State) (answer : UpdateMode) :
    (s.applyMode answer).tempAnswers = s.tempAnswers ∧ (s.applyMode answer).draws = s.draws := by
  unfold State.applyMode
  split <;> simp

/-- REGENERATE as it starts its first cycle: the "next" plane filled black (R228). -/
def State.regenerated (s : State) : State :=
  { s with
    fb := s.fb.write 0 (s.solidPlane .black), regen := .blackCycle, mode := .fast, seq := .cfgResetSend
    inProgress := some .regenerate }

theorem exec_regenerate_of_accepting {s : State} (ha : s.Accepting) : exec .regenerate s = .next s.regenerated := by
  change s.whenBegun _ = _
  rw [State.whenBegun_of_accepting ha, State.clearSolid_eq]
  rfl

theorem State.fbByte_regenerated (s : State) (a : Nat) :
    s.regenerated.fbByte a =
      if a < s.profile.planeSize then if s.invert then 0x00#8 else 0xFF#8 else s.fbByte a := by
  rw [← s.fillByte_black]
  exact s.fbByte_clearSolid .black a

/-! ## The steps of a cycle -/

/-- The step after `q` in a cycle with the profile and mode of `s` (R204). -/
def State.nextOf (s : State) (q : Seq) : Seq := (s.setSeq q).nextSeq

@[simp] theorem State.vc_setSeq (s : State) (q : Seq) : (s.setSeq q).vc = s.vc := rfl

/-- What the step `q` of a cycle appends to `TRACE` in `s`; `WAIT` where it sends nothing. -/
def State.eventAt (s : State) (q : Seq) : Event := (s.setSeq q).sendEvent

/-- A send step appends its event and goes to the next step, and changes nothing else. -/
theorem State.sendFrom_eq {s : State} {site : Seq} (h : s.seq = site) (e : Event) :
    s.sendFrom site e = .next { s with trace := s.trace ++ [e], seq := s.nextOf site } := by
  subst h
  exact State.sendFrom_at rfl e

/-- A transfer of a sound profile sends its plane's first `P.frameSize` bytes and goes to the next step. -/
theorem State.transferFrom_eq {s : State} (hp : s.profile.WellFormed) {site : Seq} (h : s.seq = site) (index : Byte)
    {base : Nat} (hbase : base ≤ s.profile.planeSize) :
    s.transferFrom site index base = .next { s with
      trace := s.trace ++ [.idx index (s.fbBytes base s.profile.frameSize)], seq := s.nextOf site } := by
  have hfits : base + s.profile.frameSize ≤ s.fbSize := by
    have hframe := frameSize_le_planeSize hp
    rw [State.fbSize]
    omega
  subst h
  exact State.transferFrom_at rfl index hfits

/-- P_VCOM sends the byte of the site it stands at (R248). -/
theorem exec_pVcom_eq (s : State) :
    exec .pVcom s =
      if s.seq = .cfgVcomaltSend then s.sendFrom .cfgVcomaltSend (.idx 0x50#8 [s.profile.vcomAlt])
      else if s.seq = .rfrVcombSend then s.sendFrom .rfrVcombSend (.idx 0x50#8 [s.profile.vcomB])
      else s.sendFrom .cfgVcomaSend (.idx 0x50#8 [s.profile.vcomA]) := rfl

theorem not_portOpen_of_ne_idle {s : State} (h : s.seq ≠ .idle) : ¬ s.PortOpen := fun hopen => h hopen.1

/-- A wait before the last one runs `waitStep` when no word is presented. -/
theorem step_of_wait {s : State} (hport : s.hostPort = none) (hwait : s.seq.isWait = true)
    (hinside : s.seq ≠ .offWait) : step s = waitStep s := by
  have hrunning : s.seq ≠ .idle := fun hidle => by rw [hidle] at hwait; cases hwait
  rw [step_of_running (not_portOpen_of_ne_idle hrunning) hport, cycleStep_of_wait hwait hinside]

/-- What the commit leaves in `FB`: the "next" plane copied over the "previous" one (R214). -/
def State.committed (s : State) : Memory := s.fb.write s.profile.planeSize (s.fbBytes 0 s.profile.planeSize)

theorem step_of_commit {s : State} (hport : s.hostPort = none) (hcommit : s.seq = .xferCommit) :
    step s = .next (s.setFb s.committed).advance := by
  have hrunning : s.seq ≠ .idle := by rw [hcommit]; decide
  rw [step_of_running (not_portOpen_of_ne_idle hrunning) hport, cycleStep_of_commit hcommit, commitStep_eq]
  rfl

/-- After the commit a byte of the "previous" plane is the "next" plane's (R214). -/
theorem State.byteAt_committed_previous (s : State) {a : Nat} (h : a < s.profile.planeSize) :
    s.committed.byteAt (s.profile.planeSize + a) = s.fbByte a := by
  refine (Memory.byteAt_write ..).trans ?_
  rw [State.length_fbBytes, if_pos (by omega), State.getD_fbBytes _ _ _ _ _ (by omega)]
  congr 1
  omega

/-- The commit writes the "previous" plane only (R214). -/
theorem State.byteAt_committed_other (s : State) {a : Nat}
    (h : a < s.profile.planeSize ∨ 2 * s.profile.planeSize ≤ a) : s.committed.byteAt a = s.fbByte a := by
  refine (Memory.byteAt_write ..).trans ?_
  rw [State.length_fbBytes, if_neg (by omega)]
  rfl

/-! ## The end of a cycle -/

/-- The state OFF_WAIT leaves when the panel presents ready, by `REGEN` (R220, log 18). -/
def State.cycleEnded (s : State) : State :=
  match s.regen with
  | .off => s.finishCycle
  | .blackCycle => ((s.delay.setFb (s.fb.write 0 (s.solidPlane .white))).setRegen .whiteCycle).startCycle .fast
  | .whiteCycle => (s.setRegen .off).finishCycle

theorem endCycle_eq_cycleEnded (s : State) : endCycle s = .next s.cycleEnded := by
  rw [endCycle_eq, State.cycleEnded]
  cases s.regen <;> rfl

theorem step_of_offWait {s : State} (hport : s.hostPort = none) (hlast : s.seq = .offWait) :
    step s = .next (if s.lineReady then (s.sampleLine.emit .wait).cycleEnded else s.sampleLine) := by
  have hrunning : s.seq ≠ .idle := by rw [hlast]; decide
  rw [step_of_running (not_portOpen_of_ne_idle hrunning) hport, cycleStep_of_offWait hlast, offWaitStep,
    endCycle_eq_cycleEnded]
  split <;> rfl

section CycleEnded

variable {s : State}

/-- The cycle of FLUSH or FLUSHMODE ends with the operation's response (R220). -/
theorem State.cycleEnded_of_off (h : s.regen = .off) :
    s.cycleEnded = { s with
      seq := .idle, inProgress := none
      responses := s.responses ++ [if s.inProgress = some .flushMode then .mode s.mode else .done] } := by
  have hend : s.cycleEnded = s.finishCycle := by rw [State.cycleEnded, h]
  rw [hend, State.finishCycle, State.cycleResponse_eq]
  rfl

/-- The black cycle of a REGENERATE ends by handing over to the white one (R220, R228). -/
theorem State.cycleEnded_of_blackCycle (h : s.regen = .blackCycle) :
    s.cycleEnded = { s with
      trace := s.trace ++ [.delay], fb := s.fb.write 0 (s.solidPlane .white), regen := .whiteCycle, mode := .fast
      seq := .cfgResetSend } := by
  have hend : s.cycleEnded =
      ((s.delay.setFb (s.fb.write 0 (s.solidPlane .white))).setRegen .whiteCycle).startCycle .fast := by
    rw [State.cycleEnded, h]
  rw [hend]
  rfl

/-- The white cycle of a REGENERATE ends the operation (R220). -/
theorem State.cycleEnded_of_whiteCycle (h : s.regen = .whiteCycle) (hop : s.inProgress = some .regenerate) :
    s.cycleEnded = { s with
      regen := .off, seq := .idle, inProgress := none, responses := s.responses ++ [.done] } := by
  have hend : s.cycleEnded = (s.setRegen .off).finishCycle := by rw [State.cycleEnded, h]
  rw [hend, State.finishCycle, State.cycleResponse_eq, State.setRegen_inProgress, hop]
  rfl

/-- However a cycle ends, the busy line is left where the last sample put it. -/
theorem State.cycleEnded_line (s : State) : s.cycleEnded.busyLine = s.busyLine ∧ s.cycleEnded.draws = s.draws := by
  unfold State.cycleEnded State.finishCycle
  cases s.regen <;> simp

/-- The hand-over fills the "next" plane white and changes no other byte (R228). -/
theorem State.fbByte_cycleEnded_of_blackCycle (h : s.regen = .blackCycle) (a : Nat) :
    s.cycleEnded.fbByte a =
      if a < s.profile.planeSize then if s.invert then 0xFF#8 else 0x00#8 else s.fbByte a := by
  rw [State.cycleEnded_of_blackCycle h, ← s.fillByte_white]
  exact s.fbByte_clearSolid .white a

end CycleEnded

/-! ## A run of steps -/

theorem runSteps_succ {s t : State} (h : step s = .next t) (n : Nat) : runSteps (n + 1) s = runSteps n t := by
  rw [runSteps, h]

theorem runSteps_one {s t : State} (h : step s = .next t) : runSteps 1 s = .next t := runSteps_succ h 0

/-- A run that answers is followed by the rest of the steps. -/
theorem runSteps_add {m : Nat} {s t : State} (h : runSteps m s = .next t) (n : Nat) :
    runSteps (m + n) s = runSteps n t := by
  induction m generalizing s with
  | zero =>
    cases h
    rw [Nat.zero_add]
  | succ m ih =>
    rw [runSteps] at h
    split at h
    · rename_i u hstep
      rw [Nat.add_right_comm, runSteps_succ hstep, ih h]
    · cases h
    · cases h

/-- `s` at the step `q`, with the events appended to its trace and what is left of the busy line. -/
def State.moved (s : State) (q : Seq) (events : List Event) (line : List Bool) : State :=
  { s with seq := q, trace := s.trace ++ events, busyLine := line }

/-- The steps of `path` follow one another from `q` to `last` in the cycle of `s`, and each of them is a send or a wait
before the last one (R204). -/
def State.Follows (s : State) : Seq → List Seq → Seq → Prop
  | q, [], last => q = last
  | q, p :: path, last =>
      p = q ∧ q ≠ .idle ∧ q ≠ .xferCommit ∧ q ≠ .offWait ∧ State.Follows s (s.nextOf q) path last

/-- A step that appends one event and advances goes to the next step of the cycle. -/
theorem State.advance_moved (s : State) (q : Seq) (events : List Event) (line : List Bool) (e : Event) :
    ((s.moved q events line).emit e).advance = s.moved (s.nextOf q) (events ++ [e]) line := by
  rw [State.moved, State.moved, ← List.append_assoc]
  rfl

theorem step_moved_of_command {s : State} (hport : s.hostPort = none) (hp : s.profile.WellFormed) {q : Seq} {i : Instr}
    (h : q.command = some i) (events : List Event) (line : List Bool) :
    step (s.moved q events line) = .next (s.moved (s.nextOf q) (events ++ [s.eventAt q]) line) := by
  rw [step_of_command (s := s.moved q events line) hport h,
    exec_command_eq (s := s.moved q events line) h (frameSize_le_planeSize hp), State.advance_moved]
  rfl

theorem State.eventAt_of_wait (s : State) {q : Seq} (h : q.isWait = true) : s.eventAt q = .wait := by
  cases q <;> cases h <;> rfl

theorem step_moved_of_wait {s : State} (hport : s.hostPort = none) {q : Seq} (hwait : q.isWait = true)
    (hinside : q ≠ .offWait) (events : List Event) (line : List Bool) :
    step (s.moved q events (true :: line)) = .next (s.moved (s.nextOf q) (events ++ [s.eventAt q]) line) := by
  rw [step_of_wait (s := s.moved q events (true :: line)) hport hwait hinside, s.eventAt_of_wait hwait,
    ← s.advance_moved]
  rfl

/-- A send step is no wait (R112). -/
theorem isWait_of_command {q : Seq} {i : Instr} (h : q.command = some i) : q.isWait = false := by
  cases q <;> cases h <;> rfl

/-- A run along sends and waits appends the event of each step, and takes one ready sample for each wait. -/
theorem runSteps_moved {s : State} (hport : s.hostPort = none) (hp : s.profile.WellFormed) {q last : Seq}
    {path : List Seq} (h : s.Follows q path last) (events : List Event) (line : List Bool) :
    runSteps path.length (s.moved q events (List.replicate (path.countP Seq.isWait) true ++ line)) =
      .next (s.moved last (events ++ path.map s.eventAt) line) := by
  induction path generalizing q events with
  | nil =>
    obtain rfl : q = last := h
    rw [List.map_nil, List.append_nil]
    rfl
  | cons p path ih =>
    obtain ⟨rfl, hrunning, hcommit, hlast, hrest⟩ := h
    have hstep : step (s.moved p events (List.replicate ((p :: path).countP Seq.isWait) true ++ line)) =
        .next (s.moved (s.nextOf p) (events ++ [s.eventAt p])
          (List.replicate (path.countP Seq.isWait) true ++ line)) := by
      obtain hidle | ⟨i, hcommand⟩ | hcommit' | hlast' | ⟨hwait, -⟩ := p.kinds
      · exact absurd hidle hrunning
      · rw [List.countP_cons_of_neg (by simp [isWait_of_command hcommand])]
        exact step_moved_of_command hport hp hcommand events _
      · exact absurd hcommit' hcommit
      · exact absurd hlast' hlast
      · rw [List.countP_cons_of_pos hwait, List.replicate_succ, List.cons_append]
        exact step_moved_of_wait hport hwait hlast events _
    rw [List.length_cons, runSteps_succ hstep, ih hrest, List.append_assoc, List.map_cons, List.singleton_append]

/-! ## A whole cycle -/

/-- The optional steps of the Configure phase (R209, R210). -/
def State.vcomSteps (s : State) : List Seq :=
  if s.vc then
    if s.profile.altVoltageTable then [.cfgVcomaSend, .cfgVcomaWait, .cfgVcomaltSend, .cfgVcomaltWait]
    else [.cfgVcomaSend, .cfgVcomaWait]
  else []

/-- The steps of the cycle of `s` before the commit (R205 to R213). -/
def State.stepsToCommit (s : State) : List Seq :=
  .cfgResetSend :: .cfgResetWait :: .cfgTempSend :: .cfgTempWait :: .cfgActSend :: .cfgActWait ::
    .cfgPsrSend :: .cfgPsrWait :: (s.vcomSteps ++ ([.xferPrevSend, .xferNextSend] : List Seq))

/-- The steps from Power-On to the sending of Power-Off (R216 to R219). -/
def powerSteps : List Seq := [.rfrPonSend, .rfrPonWait, .rfrRefreshSend, .rfrRefreshWait, .offSend]

/-- The steps of the cycle of `s` after the commit and before the last wait (R215 to R219). -/
def State.stepsAfterCommit (s : State) : List Seq := if s.vc then .rfrVcombSend :: powerSteps else powerSteps

theorem State.follows_stepsToCommit (s : State) : s.Follows .cfgResetSend s.stepsToCommit .xferCommit := by
  unfold State.stepsToCommit State.vcomSteps
  cases hvc : s.vc <;> cases halt : s.profile.altVoltageTable <;>
    simp [State.Follows, State.nextOf, State.nextSeq, hvc, halt]

theorem State.follows_stepsAfterCommit (s : State) :
    s.Follows (s.nextOf .xferCommit) s.stepsAfterCommit .offWait := by
  unfold State.stepsAfterCommit powerSteps
  cases hvc : s.vc <;> simp [State.Follows, State.nextOf, State.nextSeq, hvc]

/-- The events of a cycle are those of its steps, the commit having none (R222). -/
theorem State.cycleEvents_eq (s : State) :
    s.cycleEvents = s.stepsToCommit.map s.eventAt ++ s.stepsAfterCommit.map s.eventAt ++ [Event.wait] := by
  have htemp : s.eventAt .cfgTempSend = .idx 0xE5#8 [cycleTemperature s.params s.mode] :=
    congrArg (fun b => Event.idx 0xE5#8 [b]) s.temperatureByte_eq
  have hpsr : s.eventAt .cfgPsrSend = .idx 0x00#8 (cyclePsr s.profile s.mode) :=
    congrArg (Event.idx 0x00#8) s.psrBytes_eq
  rw [State.cycleEvents, ← htemp, ← hpsr]
  unfold State.configureVcom State.refreshVcom State.stepsToCommit State.vcomSteps State.stepsAfterCommit
  cases s.vc <;> cases s.profile.altVoltageTable <;> rfl

/-- How many waits a cycle has: four to configure, one after each optional Vcom command, three from Power-On on (R222,
R321). -/
theorem State.cycleWaits_eq (s : State) :
    s.cycleWaits = if s.vc then if s.profile.altVoltageTable then 9 else 8 else 7 := by
  unfold State.cycleWaits State.cycleEvents State.configureVcom State.refreshVcom
  cases s.vc <;> cases s.profile.altVoltageTable <;> rfl

theorem State.length_cycleEvents (s : State) :
    s.cycleEvents.length = if s.vc then if s.profile.altVoltageTable then 21 else 19 else 16 := by
  unfold State.cycleEvents State.configureVcom State.refreshVcom
  cases s.vc <;> cases s.profile.altVoltageTable <;> rfl

/-- The waits of a cycle are those before the commit, those after it and the last one. -/
theorem State.cycleWaits_eq_countP (s : State) :
    s.cycleWaits = s.stepsToCommit.countP Seq.isWait + (s.stepsAfterCommit.countP Seq.isWait + 1) := by
  rw [State.cycleWaits_eq]
  unfold State.stepsToCommit State.vcomSteps State.stepsAfterCommit
  cases s.vc <;> cases s.profile.altVoltageTable <;> rfl

/-- A cycle's steps are those before the commit, the commit, those after it and the last wait. -/
theorem State.cycleSteps_eq (s : State) :
    s.cycleSteps = s.stepsToCommit.length + (s.stepsAfterCommit.length + 1 + 1) := by
  rw [State.cycleSteps, State.cycleEvents_eq]
  simp only [List.length_append, List.length_map, List.length_singleton]
  omega

/-- The commit goes on with the committed memory. -/
theorem step_moved_commit {s : State} (hport : s.hostPort = none) (events : List Event) (line : List Bool) :
    step (s.moved .xferCommit events line) =
      .next ((s.setFb s.committed).moved (s.nextOf .xferCommit) events line) :=
  step_of_commit (s := s.moved .xferCommit events line) hport rfl

/-- The last wait, when the panel presents ready, ends the cycle. -/
theorem step_moved_offWait {s : State} (hport : s.hostPort = none) (events : List Event) (line : List Bool) :
    step (s.moved .offWait events (true :: line)) =
      .next (s.moved .offWait (events ++ [Event.wait]) line).cycleEnded := by
  rw [step_of_offWait (s := s.moved .offWait events (true :: line)) hport rfl, State.moved, State.moved,
    ← List.append_assoc]
  rfl

/-- `s` where its cycle is about to end: the plane committed, every event appended, the samples of the waits used up. -/
def State.cycleRun (s : State) (line : List Bool) : State := (s.setFb s.committed).moved .offWait s.cycleEvents line

/-- From the commit to the last wait: no event after the commit depends on `FB` (R215 to R219). -/
theorem runSteps_afterCommit {s : State} (hport : s.hostPort = none) (hp : s.profile.WellFormed) (events : List Event)
    (line : List Bool) :
    runSteps s.stepsAfterCommit.length ((s.setFb s.committed).moved (s.nextOf .xferCommit) events
        (List.replicate (s.stepsAfterCommit.countP Seq.isWait) true ++ line)) =
      .next ((s.setFb s.committed).moved .offWait (events ++ s.stepsAfterCommit.map s.eventAt) line) := by
  have hevents : s.stepsAfterCommit.map (s.setFb s.committed).eventAt = s.stepsAfterCommit.map s.eventAt := by
    unfold State.stepsAfterCommit
    cases s.vc <;> rfl
  rw [← hevents]
  exact runSteps_moved (s := s.setFb s.committed) hport hp (s.setFb s.committed).follows_stepsAfterCommit events line

/-- A cycle runs from CFG_RESET_SEND to its end when the line is ready at each wait, whatever `REGEN` is (R222). -/
theorem runSteps_cycle {s : State} (hseq : s.seq = .cfgResetSend) (hport : s.hostPort = none)
    (hp : s.profile.WellFormed) {line : List Bool} (hline : s.busyLine = List.replicate s.cycleWaits true ++ line) :
    runSteps s.cycleSteps s = .next (s.cycleRun line).cycleEnded := by
  rw [State.cycleWaits_eq_countP, List.replicate_add, List.replicate_succ', List.append_assoc, List.append_assoc]
    at hline
  have hstart : s.moved .cfgResetSend [] s.busyLine = s := by
    rw [State.moved, List.append_nil, ← hseq]
  have hbefore := runSteps_moved hport hp s.follows_stepsToCommit []
    (List.replicate (s.stepsAfterCommit.countP Seq.isWait) true ++ ([true] ++ line))
  rw [← hline, hstart, List.nil_append] at hbefore
  rw [State.cycleSteps_eq, runSteps_add hbefore, runSteps_succ (step_moved_commit hport _ _),
    runSteps_add (runSteps_afterCommit hport hp _ _), List.singleton_append,
    runSteps_one (step_moved_offWait (s := s.setFb s.committed) hport _ _), State.cycleRun, State.cycleEvents_eq]

/-- A cycle leaves the "next" plane as it was and makes the "previous" plane a copy of it (R214). -/
theorem State.fbByte_cycleRun (s : State) (line : List Bool) {a : Nat} (h : a < s.profile.planeSize) :
    (s.cycleRun line).fbByte a = s.fbByte a ∧
      (s.cycleRun line).fbByte (s.profile.planeSize + a) = s.fbByte a :=
  ⟨s.byteAt_committed_other (.inl h), s.byteAt_committed_previous h⟩

section RegenerateCycles

variable {s : State} (hseq : s.seq = .cfgResetSend) (hport : s.hostPort = none) (hp : s.profile.WellFormed)
  {line : List Bool} (hline : s.busyLine = List.replicate s.cycleWaits true ++ line)

include hseq hport hp hline

/-- The first cycle of a REGENERATE copies the "next" plane, fills it white, delays once and starts the second
(R228). -/
theorem runSteps_blackCycle (hregen : s.regen = .blackCycle) :
    ∃ t, runSteps s.cycleSteps s = .next t ∧
      (∀ a, a < s.profile.planeSize → t.fbByte a = (if s.invert then 0xFF#8 else 0x00#8) ∧
        t.fbByte (s.profile.planeSize + a) = s.fbByte a) ∧
      t = { s with
        fb := t.fb, trace := s.trace ++ s.cycleEvents ++ [Event.delay], busyLine := line, regen := .whiteCycle
        mode := .fast, seq := .cfgResetSend } := by
  have hblack : (s.cycleRun line).regen = .blackCycle := hregen
  refine ⟨_, runSteps_cycle hseq hport hp hline, fun a ha => ?_, ?_⟩
  · rw [State.fbByte_cycleEnded_of_blackCycle hblack, State.fbByte_cycleEnded_of_blackCycle hblack]
    exact ⟨if_pos ha, (if_neg (Nat.not_lt.mpr (Nat.le_add_right _ _))).trans (s.fbByte_cycleRun line ha).2⟩
  · rw [State.cycleEnded_of_blackCycle hblack]
    rfl

/-- The second cycle of a REGENERATE copies the "next" plane and finishes the operation (R220, R228). -/
theorem runSteps_whiteCycle (hregen : s.regen = .whiteCycle) (hop : s.inProgress = some .regenerate) :
    ∃ t, runSteps s.cycleSteps s = .next t ∧
      (∀ a, a < s.profile.planeSize → t.fbByte a = s.fbByte a ∧
        t.fbByte (s.profile.planeSize + a) = s.fbByte a) ∧
      t = { s with
        fb := t.fb, trace := s.trace ++ s.cycleEvents, busyLine := line, regen := .off, seq := .idle
        inProgress := none, responses := s.responses ++ [.done] } := by
  have hend := State.cycleEnded_of_whiteCycle (s := s.cycleRun line) hregen hop
  exact ⟨_, (runSteps_cycle hseq hport hp hline).trans (congrArg _ hend), fun a ha => s.fbByte_cycleRun line ha, rfl⟩

end RegenerateCycles

/-! ## The obligations -/

/-- Settles O57: the run of a cycle that `REGEN` = 0 ends with the operation's response. -/
theorem oneCycleRunsToPowerOff : Obligations.OneCycleRunsToPowerOff := by
  intro s rest hseq hregen hport hp hline
  have hend := State.cycleEnded_of_off (s := s.cycleRun rest) hregen
  exact ⟨_, (runSteps_cycle hseq hport hp hline).trans (congrArg _ hend), fun a ha => s.fbByte_cycleRun rest ha, rfl⟩

/-- Settles O60: the black fill, then the run of a cycle twice, once for each value of `REGEN`. -/
theorem regenerateRunsTwoCycles : Obligations.RegenerateRunsTwoCycles := by
  intro s rest ha hport hp hline
  obtain ⟨hidle, hoff⟩ := ha.1
  have hwaits : ∀ u : State, u.profile = s.profile → u.mode = .fast →
      u.cycleWaits = { s with mode := .fast }.cycleWaits := by
    intro u hprofile hmode
    rw [State.cycleWaits_eq, State.cycleWaits_eq, State.vc, State.vc, hprofile, hmode]
  rw [Nat.two_mul, List.replicate_add, List.append_assoc] at hline
  obtain ⟨w, hrunB, hbytesW, hw⟩ := runSteps_blackCycle (s := s.regenerated) rfl hport hp
    (hline.trans (by rw [hwaits s.regenerated rfl rfl])) rfl
  have hprofile : w.profile = s.profile := by rw [hw]; rfl
  have hmode : w.mode = .fast := by rw [hw]
  have hlineW : w.busyLine = List.replicate w.cycleWaits true ++ rest := by rw [hwaits w hprofile hmode, hw]
  obtain ⟨t, hrunW, hbytesT, ht⟩ := runSteps_whiteCycle (by rw [hw]) (by rw [hw]; exact hport) (hprofile ▸ hp) hlineW
    (by rw [hw]) (by rw [hw]; rfl)
  refine ⟨_, w, t, exec_regenerate_of_accepting ha, hrunB, hrunW, fun a hin => ?_, rfl, hmode, rfl, hprofile, ?_⟩
  · have hblack : s.regenerated.fbByte a = if s.invert then 0x00#8 else 0xFF#8 :=
      (s.fbByte_regenerated a).trans (if_pos hin)
    obtain ⟨hnextW, hprevW⟩ := hbytesW a hin
    obtain ⟨hnextT, hprevT⟩ := hbytesT a (hprofile ▸ hin)
    rw [hprofile] at hprevT
    exact ⟨hblack, (s.fbByte_regenerated _).trans (if_neg (by omega)), hnextW, hprevW.trans hblack,
      hnextT.trans hnextW, hprevT.trans hnextW⟩
  · have htrace : w.trace ++ w.cycleEvents =
        s.trace ++ (s.regenerated.cycleEvents ++ [Event.delay] ++ w.cycleEvents) := by
      rw [← List.append_assoc, ← List.append_assoc]
      exact congrArg (· ++ w.cycleEvents) (congrArg State.trace hw)
    refine ht.trans ?_
    rw [htrace, hidle, hoff]
    generalize w.cycleEvents = events
    rw [hw]
    rfl

/-- Settles O35: the fill of the start of a REGENERATE, byte by byte. -/
theorem regenerateStartsTheBlackCycle : Obligations.RegenerateStartsTheBlackCycle := by
  intro s ha
  exact ⟨_, exec_regenerate_of_accepting ha, fun a hin => (s.fbByte_regenerated a).trans (if_pos hin),
    fun a hout => (s.fbByte_regenerated a).trans (if_neg (Nat.not_lt.mpr hout)), rfl⟩

/-- Settles O42: the bytes the commit leaves, and the step after it by `vc`. -/
theorem commitCopiesTheWholePlane : Obligations.CommitCopiesTheWholePlane := by
  intro s hport hcommit
  refine ⟨_, step_of_commit hport hcommit, fun a hin => s.byteAt_committed_previous hin,
    fun a hout => s.byteAt_committed_other hout, ?_⟩
  have hnext : (s.setFb s.committed).nextSeq =
      if s.profile.fastCapable = true ∧ s.mode ≠ .globalMode then .rfrVcombSend else .rfrPonSend := by
    rw [State.nextSeq, State.setFb_seq, hcommit]
    exact if_congr s.vc_iff rfl rfl
  rw [← hnext]
  rfl

/-- Settles O43: a busy sample, or the end of the cycle for each value of `REGEN`. -/
theorem offWaitEndsTheCycleByRegen : Obligations.OffWaitEndsTheCycleByRegen := by
  intro s hport hlast
  obtain ⟨line, draws, hsample, hhead, hempty⟩ := s.exists_sampleLine
  obtain ⟨t, hstep, hready, hbusy⟩ : ∃ t, step s = .next t ∧
      (s.lineReady = true → t = ((s.sampled line draws).emit .wait).cycleEnded) ∧
      (s.lineReady = false → t = s.sampled line draws) :=
    ⟨_, step_of_offWait hport hlast, fun hr => by rw [hr, hsample]; rfl, fun hr => by rw [hr, hsample]; rfl⟩
  have hline : t.busyLine = line ∧ t.draws = draws := by
    cases hr : s.lineReady with
    | false => rw [hbusy hr]; exact ⟨rfl, rfl⟩
    | true => rw [hready hr]; exact State.cycleEnded_line _
  refine ⟨s.lineReady, t, hstep, fun r rest h => ?_, fun h => ?_, fun hr => ?_, fun hr hregen => ?_,
    fun hr hregen => ?_, fun hr hregen hop => ?_⟩
  · obtain ⟨hr, hrest, hdraws⟩ := hhead r rest h
    exact ⟨hr, hline.1.trans hrest, hline.2.trans hdraws⟩
  · obtain ⟨hr, hrest, hdraws⟩ := hempty h
    exact ⟨hr, hline.1.trans hrest, hline.2.trans hdraws⟩
  · rw [hline.1, hline.2, hbusy hr]
    rfl
  · have hoff : ((s.sampled line draws).emit .wait).regen = .off := hregen
    rw [hline.1, hline.2, hready hr, State.cycleEnded_of_off hoff]
    rfl
  · have hblack : ((s.sampled line draws).emit .wait).regen = .blackCycle := hregen
    have hbyte := State.fbByte_cycleEnded_of_blackCycle hblack
    have htrace : s.trace ++ [Event.wait] ++ [Event.delay] = s.trace ++ [Event.wait, Event.delay] :=
      List.append_assoc ..
    rw [hline.1, hline.2, hready hr]
    refine ⟨fun a hin => (hbyte a).trans (if_pos hin),
      fun a hout => (hbyte a).trans (if_neg (Nat.not_lt.mpr hout)), ?_⟩
    rw [State.cycleEnded_of_blackCycle hblack, ← htrace]
    rfl
  · have hwhite : ((s.sampled line draws).emit .wait).regen = .whiteCycle := hregen
    rw [hline.1, hline.2, hready hr, State.cycleEnded_of_whiteCycle hwhite hop]
    rfl

/-- Settles O33: the two gates pass and the cycle starts. -/
theorem flushStartsAFastCycle : Obligations.FlushStartsAFastCycle :=
  fun _ ha => State.whenBegun_of_accepting ha _

/-- Settles O34: the answer is taken, then applied. -/
theorem flushModeAppliesTheAnswer : Obligations.FlushModeAppliesTheAnswer := by
  intro s m ha
  obtain ⟨answers, draws, htake, hhead⟩ := s.exists_takeAnswer m
  obtain ⟨t, hexec, ht⟩ : ∃ t, exec (.flushMode m) s = .next t ∧
      t = ((s.answered answers draws).emit (.tempChk m (s.temperatureAnswer m))).applyMode (s.temperatureAnswer m) := by
    rw [← htake]
    exact ⟨_, State.whenBegun_of_accepting ha _, rfl⟩
  have hanswers : t.tempAnswers = answers ∧ t.draws = draws := by
    rw [ht]
    exact State.applyMode_answers _ _
  refine ⟨s.temperatureAnswer m, t, hexec, fun a rest h => ?_, fun hnone => ?_, fun hmode => ?_⟩
  · obtain ⟨hanswer, hrest, hdraws⟩ := hhead a rest h
    exact ⟨hanswer, hanswers.1.trans hrest, hanswers.2.trans hdraws⟩
  · have htrace : s.trace ++ [Event.tempChk m .noUpdate] ++ [Event.report] =
        s.trace ++ [Event.tempChk m .noUpdate, Event.report] :=
      List.append_assoc ..
    rw [hanswers.1, hanswers.2, ht, hnone, ← htrace]
    rfl
  · rw [hanswers.1, hanswers.2, ht, State.applyMode, if_neg hmode]
    rfl

/-- Settles O36: each is a send step, its payload by mode written out. -/
theorem configureCommandsTransmit : Obligations.ConfigureCommandsTransmit := by
  intro s
  refine ⟨fun h => State.sendFrom_eq h _, fun h => ?_, fun h => State.sendFrom_eq h _, fun h => ?_⟩
  · exact (State.sendFrom_eq h _).trans (by rw [State.temperatureByte_eq]; rfl)
  · exact (State.sendFrom_eq h _).trans (by rw [State.psrBytes_eq]; rfl)

/-- Settles O37: the site decides which of the three sends P_VCOM is. -/
theorem vcomTransmitsTheByteOfItsSite : Obligations.VcomTransmitsTheByteOfItsSite := by
  intro s
  refine ⟨fun h => ?_, fun h => ?_, fun h => ?_⟩
  · rw [exec_pVcom_eq, if_neg (by rw [h]; decide), if_neg (by rw [h]; decide)]
    exact State.sendFrom_eq h _
  · rw [exec_pVcom_eq, if_pos h]
    exact State.sendFrom_eq h _
  · rw [exec_pVcom_eq, if_neg (by rw [h]; decide), if_pos h]
    exact State.sendFrom_eq h _

/-- Settles O38: both transfers stay inside their plane, the "next" one from address 0 on. -/
theorem transfersSendTheStoredBytes : Obligations.TransfersSendTheStoredBytes := by
  intro s hp
  refine ⟨fun h => State.transferFrom_eq hp h _ (le_refl _), fun h => ?_⟩
  have hbytes : s.fbBytes 0 s.profile.frameSize = (List.range s.profile.frameSize).map fun k => s.fbByte k := by
    simp only [State.fbBytes, Nat.zero_add]
  rw [← hbytes]
  exact State.transferFrom_eq hp h _ (Nat.zero_le _)

/-- Settles O39: each is a send step of one code byte. -/
theorem powerCommandsTransmit : Obligations.PowerCommandsTransmit :=
  fun _ => ⟨fun h => State.sendFrom_eq h _, fun h => State.sendFrom_eq h _, fun h => State.sendFrom_eq h _⟩

/-- Settles O41: one sample decides whether the wait moves on. -/
theorem waitStepsWaitForThePanel : Obligations.WaitStepsWaitForThePanel := by
  intro s hport hwait hinside
  obtain ⟨line, draws, hsample, hhead, -⟩ := s.exists_sampleLine
  have hstep := step_of_wait hport hwait hinside
  rw [waitStep, hsample] at hstep
  cases hr : s.lineReady with
  | true =>
    rw [hr] at hstep hhead
    exact ⟨true, _, hstep, fun r rest h => hhead r rest h, fun _ => rfl, nofun⟩
  | false =>
    rw [hr] at hstep hhead
    exact ⟨false, _, hstep, fun r rest h => hhead r rest h, nofun, fun _ => rfl⟩

/-- Settles O58: the counts of the list of events by `vc` and the alternate table. -/
theorem cycleLengths : Obligations.CycleLengths := by
  intro s
  refine ⟨?_, ?_, ?_⟩
  · rw [State.length_cycleEvents]
    exact if_congr s.vc_iff rfl rfl
  · rw [State.cycleSteps, State.length_cycleEvents]
    split_ifs <;> decide
  · rw [State.cycleWaits_eq]
    split_ifs <;> decide

/-- Settles O59: the first events of a cycle by mode, and the optional sends only under `vc`. -/
theorem commandScenariosOfTheDocument : Obligations.CommandScenariosOfTheDocument := by
  intro s
  refine ⟨fun hfast halt hmode => ?_, fun hmode => ?_⟩
  · have hvc : s.vc = true := s.vc_iff.mpr ⟨hfast, by rw [hmode]; decide⟩
    rw [State.cycleEvents, State.configureVcom, hvc, halt, hmode]
    rfl
  · have hvc : s.vc = false := by rw [State.vc, hmode]; exact Bool.and_false _
    rw [State.cycleEvents, State.configureVcom, State.refreshVcom, hvc, hmode]
    exact ⟨fun payload => by simp, rfl⟩

end Sys2Proof.Machine
end

section
/-! PROOFS. When a step transmits (44_panel_commands.md): `step_emits` says once which events a step adds to `TRACE`.
Outside the send steps they are none of the panel port's (R257), and of the send steps Power-On and Power-Off alone
move the panel's power (R255, 60_exceptions.md R293). -/

namespace Sys2Proof.Machine

/-! ## Events that are no transmission -/

theorem Event.wire_eq_none_iff {e : Event} :
    e.wire = none ↔ (∀ i payload, e ≠ .idx i payload) ∧ ∀ c, e ≠ .cmd c := by
  cases e <;> simp [Event.wire]

/-- `t`'s trace is `s`'s with events added that are no transmission on the panel port. -/
def State.AddsNoCommand (s t : State) : Prop := ∃ events, t.trace = s.trace ++ events ∧ ∀ e ∈ events, e.wire = none

/-- `s` stands at a send step, and `t` is what its transmission leaves (R205 to R219). -/
def State.Transmits (s t : State) : Prop := s.seq.command ≠ none ∧ t = (s.emit s.sendEvent).advance

section AddsNoCommand

variable {s t : State}

theorem State.addsNoCommand_of_trace (h : t.trace = s.trace) : s.AddsNoCommand t :=
  ⟨[], by rw [h, List.append_nil], nofun⟩

theorem State.addsNoCommand_of_sampleLine (s : State) : s.AddsNoCommand s.sampleLine :=
  State.addsNoCommand_of_trace s.sampleLine_trace

theorem State.AddsNoCommand.of_takeHostWord {u : State} {w : HostWord} (htake : s.takeHostWord = some (w, u))
    (h : u.AddsNoCommand t) : s.AddsNoCommand t := by
  rw [takeHostWord_eq_some htake] at h
  exact h

/-- FLUSHMODE adds TEMPCHK, and REPORT when the answer is None (R225, R227). -/
theorem execFlushMode_addsNoCommand {m : UpdateMode} (h : execFlushMode m s = .next t) : s.AddsNoCommand t := by
  obtain ⟨-, -, rfl⟩ := execFlushMode_next h
  unfold State.applyMode State.checkTemperatureMode
  split
  · exact ⟨[.tempChk m (s.temperatureAnswer m), .report], by simp, by simp [Event.wire]⟩
  · exact ⟨[.tempChk m (s.temperatureAnswer m)], by simp, by simp [Event.wire]⟩

/-- A host operation that answers is a BEGIN, which empties the trace, or transmits nothing. -/
theorem execHost_addsNoCommand {i : Instr} (hhost : i.isHostOp = true) (h : exec i s = .next t) :
    s.Begins t ∨ s.AddsNoCommand t := by
  cases i with
  | beginOp code =>
    obtain ⟨hopen, hinit, rfl⟩ := execBegin_next h
    exact .inl ⟨hopen, hinit, s.hostPort, s.hostQueue, code, rfl⟩
  | clear =>
    obtain ⟨-, -, colour, u, -, hwrite, rfl⟩ := execClear_next h
    obtain ⟨bytes, -, rfl, -⟩ := clearWrite_eq_some hwrite
    exact .inr (State.addsNoCommand_of_trace rfl)
  | setPixel =>
    obtain ⟨-, -, colour, -, ⟨-, rfl⟩ | ⟨place, u, -, hput, rfl⟩⟩ := execSetPixel_next h
    · exact .inr (State.addsNoCommand_of_trace rfl)
    · obtain ⟨-, rfl⟩ := putPixel_eq_some hput
      exact .inr (State.addsNoCommand_of_trace rfl)
  | getPixel =>
    obtain ⟨-, -, c, rfl⟩ := execGetPixel_next h
    exact .inr (State.addsNoCommand_of_trace rfl)
  | setOrient =>
    obtain ⟨-, -, orient, -, rfl⟩ := execSetOrient_next h
    exact .inr (State.addsNoCommand_of_trace rfl)
  | setInvert =>
    obtain ⟨-, -, rfl⟩ := execSetInvert_next h
    exact .inr (State.addsNoCommand_of_trace rfl)
  | flush =>
    obtain ⟨-, -, rfl⟩ := execFlush_next h
    exact .inr (State.addsNoCommand_of_trace rfl)
  | flushMode => exact .inr (execFlushMode_addsNoCommand h)
  | regenerate =>
    obtain ⟨-, -, rfl⟩ := execRegenerate_next h
    exact .inr (State.addsNoCommand_of_trace rfl)
  | _ => cases hhost

/-- A wait inside the cycle adds WAIT when the line is ready (R211, R218). -/
theorem waitStep_addsNoCommand (h : waitStep s = .next t) : s.AddsNoCommand t := by
  obtain ⟨-, rfl⟩ | ⟨-, rfl⟩ := waitStep_next h
  · exact ⟨[.wait], by simp, by simp [Event.wire]⟩
  · exact s.addsNoCommand_of_sampleLine

/-- The end of a cycle adds DELAY when a REGENERATE goes on to its second cycle (R220). -/
theorem State.cycleEnded_trace (s : State) :
    s.cycleEnded.trace = s.trace ++ if s.regen = .blackCycle then [.delay] else [] := by
  unfold State.cycleEnded
  cases s.regen <;> simp [State.finishCycle, State.delay]

/-- OFF_WAIT adds WAIT when the line is ready, then what the end of the cycle adds (R220). -/
theorem offWaitStep_addsNoCommand (h : offWaitStep s = .next t) : s.AddsNoCommand t := by
  obtain ⟨-, hend⟩ | ⟨-, rfl⟩ := offWaitStep_next h
  · rw [endCycle_eq_cycleEnded, Host.Outcome.next.injEq] at hend
    subst hend
    refine ⟨.wait :: if s.regen = .blackCycle then [.delay] else [], by simp [State.cycleEnded_trace], ?_⟩
    split_ifs <;> simp [Event.wire]
  · exact s.addsNoCommand_of_sampleLine

end AddsNoCommand

/-! ## What a step adds to the trace -/

theorem command_eq_none_of_isWait {q : Seq} (h : q.isWait = true) : q.command = none := by
  cases q <;> simp only [Seq.isWait, Bool.false_eq_true] at h <;> rfl

/-- Every step is a BEGIN's, a transmission of a send step, or one away from the send steps that transmits nothing. -/
theorem step_emits {s t : State} (h : step s = .next t) :
    s.Begins t ∨ s.Transmits t ∨ s.seq.command = none ∧ s.AddsNoCommand t := by
  have hidle : s.PortOpen → s.seq.command = none := fun hopen => by rw [hopen.1]; rfl
  obtain ⟨hopen, -, rfl⟩ | ⟨hopen, w, u, i, htake, hdecode, h⟩ | ⟨-, -, i, hcommand, h⟩ | ⟨-, -, hwait, -, h⟩ |
    ⟨-, -, hcommit, h⟩ | ⟨-, -, hlast, h⟩ := step_next_cases h
  · exact .inr (.inr ⟨hidle hopen, State.addsNoCommand_of_trace rfl⟩)
  · rcases execHost_addsNoCommand (isHostOp_of_decodeHostWord hdecode) h with hbegins | hquiet
    · exact .inl (hbegins.of_takeHostWord htake)
    · exact .inr (.inr ⟨hidle hopen, hquiet.of_takeHostWord htake⟩)
  · obtain ⟨-, ht⟩ := execPanel_next (isHostOp_of_command hcommand) h
    exact .inr (.inl ⟨by simp [hcommand], ht⟩)
  · exact .inr (.inr ⟨command_eq_none_of_isWait hwait, waitStep_addsNoCommand h⟩)
  · rw [commitStep_eq, Host.Outcome.next.injEq] at h
    exact .inr (.inr ⟨by rw [hcommit]; rfl, State.addsNoCommand_of_trace (by rw [← h]; rfl)⟩)
  · exact .inr (.inr ⟨by rw [hlast]; rfl, offWaitStep_addsNoCommand h⟩)

/-! ## The panel's power -/

theorem powerAfter_of_wire_eq_none {e : Event} (h : e.wire = none) (powerOff : Byte) (on : Bool) :
    powerAfter powerOff on e = on := by
  cases e with
  | idx | cmd => cases h
  | _ => rfl

theorem panelPowered_append_of_wire_eq_none {events : List Event} (h : ∀ e ∈ events, e.wire = none) (powerOff : Byte)
    (trace : List Event) : panelPowered powerOff (trace ++ events) = panelPowered powerOff trace := by
  rw [panelPowered, List.foldl_append, ← panelPowered]
  generalize panelPowered powerOff trace = on
  induction events with
  | nil => rfl
  | cons e events ih =>
    rw [List.foldl_cons, powerAfter_of_wire_eq_none (h e List.mem_cons_self)]
    exact ih fun e' he' => h e' (List.mem_cons_of_mem _ he')

theorem panelPowered_append_singleton (powerOff : Byte) (trace : List Event) (e : Event) :
    panelPowered powerOff (trace ++ [e]) = powerAfter powerOff (panelPowered powerOff trace) e := by
  rw [panelPowered, List.foldl_append]
  rfl

/-- A send step's transmission puts the power where `next(SEQ)` wants it: Power-On at RFR_PON_SEND puts it on, Power-Off
at OFF_SEND off, and no other one moves it (R251, R253). -/
theorem powerAfter_sendEvent {s : State} (hpower : s.params.powerOffWf = true) (hcommand : s.seq.command ≠ none) :
    powerAfter s.params.cmdPowerOff s.seq.insidePower s.sendEvent = s.nextSeq.insidePower := by
  obtain ⟨hon, hrefresh⟩ := powerOffWf_iff.mp hpower
  unfold State.sendEvent State.nextSeq
  cases hseq : s.seq <;> simp only [hseq, Seq.command, ne_eq, reduceCtorEq, not_true_eq_false] at hcommand
  case rfrRefreshSend => simp [powerAfter, Seq.insidePower, Ne.symm hrefresh]
  case offSend => simp [powerAfter, Seq.insidePower, hon]
  all_goals rfl

/-- Away from the send steps `SEQ` moves on the same side of the power bracket (R204, R220). -/
theorem State.Moves.insidePower_eq {s t : State} (h : s.Moves t) (hcommand : s.seq.command = none) :
    t.seq.insidePower = s.seq.insidePower := by
  cases h with
  | stays why seq => rw [seq]
  | advances running inside seq =>
    rw [seq]
    unfold State.nextSeq
    cases hseq : s.seq <;>
      simp only [hseq, Seq.command, reduceCtorEq, ne_eq, not_true_eq_false] at hcommand running inside
    case cfgPsrWait | xferCommit => cases s.vc <;> rfl
    case cfgVcomaWait => cases s.profile.altVoltageTable <;> rfl
    all_goals rfl
  | starts isOpen begun seq => rw [seq, isOpen.1]; rfl
  | handsOver last black seq => rw [seq, last]; rfl
  | finishes last seq => rw [seq, last]; rfl

section PowerInv

variable {s t : State}

theorem PowerInv.of_begins (hs : PowerInv s) (h : s.Begins t) : PowerInv t := by
  obtain ⟨-, -, port, queue, code, rfl⟩ := h
  exact ⟨hs.powerOff_wf, rfl⟩

theorem PowerInv.of_transmits (hs : PowerInv s) (h : s.Transmits t) : PowerInv t := by
  obtain ⟨hcommand, rfl⟩ := h
  refine ⟨hs.powerOff_wf, ?_⟩
  change panelPowered s.params.cmdPowerOff (s.trace ++ [s.sendEvent]) = s.nextSeq.insidePower
  rw [panelPowered_append_singleton, hs.powered_iff, powerAfter_sendEvent hs.powerOff_wf hcommand]

theorem PowerInv.of_addsNoCommand (hs : PowerInv s) (hcontinues : s.Continues t) (hmoves : s.Moves t)
    (hcommand : s.seq.command = none) (hquiet : s.AddsNoCommand t) : PowerInv t := by
  obtain ⟨events, htrace, hwire⟩ := hquiet
  refine ⟨hcontinues.params ▸ hs.powerOff_wf, ?_⟩
  rw [hcontinues.params, htrace, panelPowered_append_of_wire_eq_none hwire, hs.powered_iff,
    hmoves.insidePower_eq hcommand]

end PowerInv

/-! ## The obligations -/

/-- Settles O49: BEGIN empties the trace at IDLE, a transmission moves the power with `SEQ`, and any other step moves
neither. -/
theorem stepKeepsThePowerBracket : Obligations.StepKeepsThePowerBracket := by
  intro s t hs hstep
  rcases step_emits hstep with hbegins | htransmits | ⟨hcommand, hquiet⟩
  · exact hs.of_begins hbegins
  · exact hs.of_transmits htransmits
  · rcases step_next hstep with hbegins | ⟨hcontinues, hmoves⟩
    · exact hs.of_begins hbegins
    · exact hs.of_addsNoCommand hcontinues hmoves hcommand hquiet

/-- Settles O55: with the port open `SEQ` is at IDLE, which is no send step. -/
theorem noPanelCommandOutsideACycle : Obligations.NoPanelCommandOutsideACycle := by
  intro s t hopen hstep
  rcases step_emits hstep with ⟨-, -, port, queue, code, rfl⟩ | ⟨hcommand, -⟩ | ⟨-, events, htrace, hwire⟩
  · exact .inl rfl
  · exact absurd (by rw [hopen.1]; rfl) hcommand
  · exact .inr ⟨events, htrace, fun e he => Event.wire_eq_none_iff.mp (hwire e he)⟩

end Sys2Proof.Machine
end

section
/-! PROOFS. What a step refuses (60_exceptions.md R276): the cycle's own steps refuse nothing, since each runs the
command `SEQ` selects, and a host operation has reasons of its own, of which none is the order of the cycle. -/

namespace Sys2Proof.Machine

section Refusals

variable {s : State}

/-! ### Host operations -/

/-- A gated operation is out of sequence only where its body is: the gates have their own reasons (R40, R42). -/
theorem State.whenBegun_ne_outOfSequence {body : Result} (h : body ≠ .refused .outOfSequence) :
    s.whenBegun body ≠ .refused .outOfSequence := by
  obtain ⟨-, -, hgate⟩ | ⟨-, -, hgate⟩ | ⟨-, hgate⟩ := s.whenBegun_cases body <;> rw [hgate]
  · exact h
  · nofun
  · nofun

theorem execBegin_ne_outOfSequence (code : ScreenCode) : execBegin code s ≠ .refused .outOfSequence := by
  unfold execBegin State.whenOpen
  repeat' split
  all_goals nofun

theorem execHost_ne_outOfSequence {i : Instr} (hhost : i.isHostOp = true) :
    exec i s ≠ .refused .outOfSequence := by
  cases i with
  | beginOp code => exact execBegin_ne_outOfSequence code
  | clear | setPixel | getPixel | setOrient | regenerate =>
    refine State.whenBegun_ne_outOfSequence ?_
    repeat' split
    all_goals nofun
  | setInvert | flush | flushMode => exact State.whenBegun_ne_outOfSequence nofun
  | _ => cases hhost

theorem runHostWord_ne_outOfSequence (w : HostWord) : runHostWord w s ≠ .refused .outOfSequence := by
  unfold runHostWord
  cases hdecode : decodeHostWord w with
  | none => nofun
  | some i => exact execHost_ne_outOfSequence (isHostOp_of_decodeHostWord hdecode)

/-- With the port open a refusal is about the host word taken (R119, R301). -/
theorem hostStep_refused {r : Refusal} (h : hostStep s = .refused r) :
    s.takeHostWord ≠ none ∧ r ≠ .outOfSequence := by
  unfold hostStep at h
  cases htake : s.takeHostWord with
  | none => simp [htake] at h
  | some taken =>
    simp only [htake] at h
    exact ⟨nofun, fun hr => runHostWord_ne_outOfSequence taken.1 (hr ▸ h)⟩

/-- A host word to take is one on the host port or in the host's program (log 7). -/
theorem hostPort_or_hostQueue_of_takeHostWord (h : s.takeHostWord ≠ none) :
    s.hostPort ≠ none ∨ s.hostQueue ≠ [] := by
  by_contra hempty
  obtain ⟨hport, hqueue⟩ := not_or.mp hempty
  exact h (takeHostWord_of_empty (not_not.mp hport) (not_not.mp hqueue))

/-! ### The steps of a running cycle -/

theorem State.sendFrom_at_ne_refused {site : Seq} (h : s.seq = site) (e : Event) (r : Refusal) :
    s.sendFrom site e ≠ .refused r := by
  rw [State.sendFrom_at h]
  nofun

/-- At its place a transfer answers or finds no byte; it is not refused. -/
theorem State.transferFrom_at_ne_refused {site : Seq} (h : s.seq = site) (index : Byte) (base : Nat) (r : Refusal) :
    s.transferFrom site index base ≠ .refused r := by
  rw [State.transferFrom, if_pos h]
  split <;> nofun

/-- The command of the send step `SEQ` stands at is not refused, whatever the profile; at any other step it is
(`exec_panel_of_away`). -/
theorem execCommand_ne_refused {i : Instr} (hcommand : s.seq.command = some i) (r : Refusal) :
    exec i s ≠ .refused r := by
  cases hseq : s.seq <;> rw [hseq] at hcommand <;> cases hcommand
  case xferPrevSend | xferNextSend => exact State.transferFrom_at_ne_refused hseq _ _ r
  case cfgVcomaSend | cfgVcomaltSend | rfrVcombSend =>
    change execPVcom s ≠ _
    simp only [execPVcom, hseq, reduceCtorEq, if_true, if_false]
    exact State.sendFrom_at_ne_refused hseq _ r
  all_goals exact State.sendFrom_at_ne_refused hseq _ r

theorem waitStep_ne_refused (r : Refusal) : waitStep s ≠ .refused r := by
  unfold waitStep
  split <;> nofun

theorem offWaitStep_ne_refused (r : Refusal) : offWaitStep s ≠ .refused r := by
  unfold offWaitStep
  rw [endCycle_eq]
  repeat' split
  all_goals nofun

/-- A running cycle refuses none of its own steps (R88). -/
theorem cycleStep_ne_refused (hrunning : s.seq ≠ .idle) (r : Refusal) : cycleStep s ≠ .refused r := by
  obtain hidle | ⟨i, hcommand⟩ | hcommit | hlast | ⟨hwait, hinside⟩ := s.seq.kinds
  · exact absurd hidle hrunning
  · rw [cycleStep_of_command hcommand]
    exact execCommand_ne_refused hcommand r
  · rw [cycleStep_of_commit hcommit, commitStep_eq]
    nofun
  · rw [cycleStep_of_offWait hlast]
    exact offWaitStep_ne_refused r
  · rw [cycleStep_of_wait hwait hinside]
    exact waitStep_ne_refused r

/-- A sound sequencer closes the port by a running cycle alone (R42, R47). -/
theorem SequencerInv.running_of_closed (hs : SequencerInv s) (hclosed : ¬ s.PortOpen) : s.seq ≠ .idle :=
  fun hidle => hclosed ⟨hidle, hs.idle_regen hidle⟩

end Refusals

/-! ## The obligation -/

/-- Settles O51: with the port open a refusal is about the word taken; with it closed a presented word is refused
Reentrant, and without one the running cycle's step is not refused. -/
theorem onlyTheHostCausesRefusals : Obligations.OnlyTheHostCausesRefusals := by
  intro s r hs hstep
  by_cases hopen : s.PortOpen
  · rw [step_of_open hopen] at hstep
    obtain ⟨htake, hreason⟩ := hostStep_refused hstep
    exact ⟨hostPort_or_hostQueue_of_takeHostWord htake, hreason⟩
  · cases hport : s.hostPort with
    | some w =>
      rw [step_of_closed_of_hostPort hopen hport] at hstep
      cases hstep
      exact ⟨.inl nofun, nofun⟩
    | none =>
      rw [step_of_running hopen hport] at hstep
      exact absurd hstep (cycleStep_ne_refused (hs.running_of_closed hopen) r)

end Sys2Proof.Machine
end

section
/-! PROOFS. Which plane a step writes (20_memory.md R82, 70_reset_and_hazards.md R311, R315, R316): `step_writes` says
once what a step can do to `FB`. The host's operations reach the "next" plane alone, and of a cycle's steps only the
commit, into the "previous" plane, and the hand-over of a REGENERATE, into the "next" one, write at all. -/

namespace Sys2Proof.Machine

/-- `t` has the bytes of `s` from the "previous" plane on. -/
def State.KeepsPrevious (s t : State) : Prop := ∀ a, s.profile.planeSize ≤ a → t.fbByte a = s.fbByte a

/-- What a step does to `FB`: a host operation, once begun over a sound profile, keeps the "previous" plane (R82); any
other step writes nothing, or is the commit (R214), or the hand-over of a REGENERATE (R220). -/
inductive State.Writes (s t : State) : Prop
  | host (isOpen : s.PortOpen) (previous : s.init = true → s.profile.WellFormed → s.KeepsPrevious t)
  | nothing (fb : t.fb = s.fb)
  | commit (site : s.seq = .xferCommit) (fb : t.fb = s.committed)
  | handsOver (last : s.seq = .offWait) (black : s.regen = .blackCycle)
      (fb : t.fb = s.fb.write 0 (s.solidPlane .white))

section Writes

variable {s t : State}

/-! ### Operations that keep the "previous" plane -/

theorem State.fbByte_of_fb {m : Memory} (h : t.fb = m) (a : Nat) : t.fbByte a = m.byteAt a :=
  congrArg (Memory.byteAt · a) h

theorem State.keepsPrevious_of_fb (h : t.fb = s.fb) : s.KeepsPrevious t := fun a _ => State.fbByte_of_fb h a

/-- A write that ends inside the "next" plane keeps the "previous" one. -/
theorem State.keepsPrevious_of_write {a : Nat} {bytes : List Byte} (hfits : a + bytes.length ≤ s.profile.planeSize)
    (h : t.fb = s.fb.write a bytes) : s.KeepsPrevious t := by
  intro x hx
  calc t.fbByte x = (s.setFb (s.fb.write a bytes)).fbByte x := State.fbByte_of_fb h x
    _ = s.fbByte x := by rw [State.fbByte_setFb_write, if_neg (by omega)]

/-- A solid fill is one plane long (R180). -/
theorem State.keepsPrevious_of_solidPlane {c : BinColour} (h : t.fb = s.fb.write 0 (s.solidPlane c)) :
    s.KeepsPrevious t :=
  State.keepsPrevious_of_write (by simp [State.solidPlane]) h

/-- FLUSHMODE writes no byte, whatever the collaborator answers (R225). -/
theorem execFlushMode_fb {m : UpdateMode} (h : execFlushMode m s = .next t) : t.fb = s.fb := by
  obtain ⟨-, -, rfl⟩ := execFlushMode_next h
  unfold State.applyMode State.checkTemperatureMode
  split <;> simp

/-- Of the host operations a begun block runs, CLEAR, SETPIXEL and REGENERATE write, inside the "next" plane. -/
theorem execHost_keepsPrevious (hinit : s.init = true) (hp : s.profile.WellFormed) {i : Instr}
    (hhost : i.isHostOp = true) (h : exec i s = .next t) : s.KeepsPrevious t := by
  cases i with
  | beginOp code =>
    obtain ⟨-, hnotBegun, -⟩ := execBegin_next h
    exact absurd (hinit.symm.trans hnotBegun) nofun
  | clear =>
    obtain ⟨colour, -, rfl⟩ := execClear_eq_next h
    refine State.keepsPrevious_of_write ?_ rfl
    rw [State.length_clearBytes hp, Nat.zero_add]
  | setPixel =>
    obtain ⟨colour, -, ⟨-, rfl⟩ | ⟨place, hplace, rfl⟩⟩ := execSetPixel_eq_next h
    · exact State.keepsPrevious_of_fb rfl
    · exact State.keepsPrevious_of_write (off_lt_of_toBuffer hp hplace) rfl
  | getPixel =>
    obtain ⟨-, -, c, rfl⟩ := execGetPixel_next h
    exact State.keepsPrevious_of_fb rfl
  | setOrient =>
    obtain ⟨-, -, orient, -, rfl⟩ := execSetOrient_next h
    exact State.keepsPrevious_of_fb rfl
  | setInvert =>
    obtain ⟨-, -, rfl⟩ := execSetInvert_next h
    exact State.keepsPrevious_of_fb rfl
  | flush =>
    obtain ⟨-, -, rfl⟩ := execFlush_next h
    exact State.keepsPrevious_of_fb rfl
  | flushMode => exact State.keepsPrevious_of_fb (execFlushMode_fb h)
  | regenerate =>
    obtain ⟨-, -, rfl⟩ := execRegenerate_next h
    exact State.keepsPrevious_of_solidPlane rfl
  | _ => cases hhost

/-! ### The waits of a cycle -/

theorem waitStep_fb (h : waitStep s = .next t) : t.fb = s.fb := by
  obtain ⟨-, rfl⟩ | ⟨-, rfl⟩ := waitStep_next h <;> simp

/-- The end of a cycle fills the "next" plane white when a REGENERATE goes on to its second cycle (R220). -/
theorem State.cycleEnded_fb (s : State) :
    s.cycleEnded.fb = if s.regen = .blackCycle then s.fb.write 0 (s.solidPlane .white) else s.fb := by
  unfold State.cycleEnded
  cases s.regen <;> simp [State.finishCycle]

/-- A sample of the busy line and the WAIT it ends change no byte of a solid fill (R180). -/
theorem State.solidPlane_sampleLine_emit (s : State) (e : Event) (c : BinColour) :
    (s.sampleLine.emit e).solidPlane c = s.solidPlane c := by
  rw [sampleLine_eq]
  rfl

/-- OFF_WAIT writes at the hand-over of a REGENERATE alone (R220). -/
theorem offWaitStep_writes (hlast : s.seq = .offWait) (h : offWaitStep s = .next t) : s.Writes t := by
  obtain ⟨-, hend⟩ | ⟨-, rfl⟩ := offWaitStep_next h
  · rw [endCycle_eq_cycleEnded, Host.Outcome.next.injEq] at hend
    have hfb : t.fb = if s.regen = .blackCycle then s.fb.write 0 (s.solidPlane .white) else s.fb := by
      rw [← hend, State.cycleEnded_fb, State.solidPlane_sampleLine_emit, State.emit_regen, State.sampleLine_regen,
        State.emit_fb, State.sampleLine_fb]
    by_cases hblack : s.regen = .blackCycle
    · exact .handsOver hlast hblack (hfb.trans (if_pos hblack))
    · exact .nothing (hfb.trans (if_neg hblack))
  · exact .nothing s.sampleLine_fb

/-! ### Every step -/

theorem step_writes (h : step s = .next t) : s.Writes t := by
  obtain ⟨-, -, rfl⟩ | ⟨hopen, w, u, i, htake, hdecode, h⟩ | ⟨-, -, i, hcommand, h⟩ | ⟨-, -, -, -, h⟩ |
    ⟨-, -, hcommit, h⟩ | ⟨-, -, hlast, h⟩ := step_next_cases h
  · exact .nothing rfl
  · obtain ⟨port, queue, rfl⟩ : ∃ port queue, u = { s with hostPort := port, hostQueue := queue } :=
      ⟨_, _, takeHostWord_eq_some htake⟩
    exact .host hopen fun hinit hp => execHost_keepsPrevious (s := { s with hostPort := port, hostQueue := queue })
      hinit hp (isHostOp_of_decodeHostWord hdecode) h
  · obtain ⟨-, rfl⟩ := execPanel_next (isHostOp_of_command hcommand) h
    exact .nothing rfl
  · exact .nothing (waitStep_fb h)
  · rw [commitStep_eq, Host.Outcome.next.injEq] at h
    exact .commit hcommit (by rw [← h]; rfl)
  · exact offWaitStep_writes hlast h

end Writes

/-! ## The obligations -/

/-- Settles O53: of the steps that write, the commit is excluded, and the others reach the "next" plane alone. -/
theorem previousPlaneIsWrittenByTheCommitOnly : Obligations.PreviousPlaneIsWrittenByTheCommitOnly := by
  intro s t hs hinit hcommit hstep
  cases step_writes hstep with
  | host isOpen previous => exact previous hinit hs.profile_wf
  | nothing fb => exact State.keepsPrevious_of_fb fb
  | commit site => exact absurd site hcommit
  | handsOver last black fb => exact State.keepsPrevious_of_solidPlane fb

/-- Settles O54: with the port closed and the hand-over excluded a step that writes is the commit, whose bytes lie past
the "next" plane. -/
theorem nextPlaneIsStableDuringACycle : Obligations.NextPlaneIsStableDuringACycle := by
  intro s t hclosed hinside hstep a ha
  cases step_writes hstep with
  | host isOpen => exact absurd isOpen hclosed
  | nothing fb => exact State.fbByte_of_fb fb a
  | commit site fb => exact (State.fbByte_of_fb fb a).trans (s.byteAt_committed_other (.inl ha))
  | handsOver last black => exact absurd ⟨last, black⟩ hinside

end Sys2Proof.Machine
end
